-- ==== Sys2Proof/Word.lean ====
section
/-! DEFINITION. The plain types of the block's values: bytes, 32-bit command and response words, and the
200-byte permutation state (00_scope.md R7, R11; 20_memory.md R50). -/

namespace Sys2Proof

/-- One state, message or output byte. -/
abbrev Byte := BitVec 8

/-- A command word (30_encoding.md R70) or a response data word (R79). -/
abbrev Word := BitVec 32

/-- The permutation state as the controller sees it: `STATE_BYTES = 200` bytes, offsets 0 to 199
(00_scope.md R7, 10_state.md R27). -/
abbrev StateBytes := Vector Byte 200

end Sys2Proof
end

