-- ==== Sys2Proof/Syntax.lean ====
section
/-! DEFINITION. The six commands of `SSC-CMD v1` (30_encoding.md R74, spec/opcode_table.json), one constructor a
row. The operand widths are those of the encoding, so an operand the encoding cannot hold is no term. -/

namespace Sys2Proof

/-- A command, as `decode` of 30_encoding.md R78 returns it. -/
inductive Instr where
  /-- NOP (40_session_control.md R100). -/
  | nop
  /-- INIT n: `n = ARG[15:0]`, the requested security strength, unsigned (R75, R101). -/
  | init (n : BitVec 16)
  /-- ABSORB b: `b = ARG[7:0]`, one message byte (R76, R120). -/
  | absorb (b : Byte)
  /-- FINALIZE (42_finalize.md R140). -/
  | finalize
  /-- SQUEEZE (43_squeeze.md R160). -/
  | squeeze
  /-- RDSTAT (40_session_control.md R103). -/
  | rdstat
deriving DecidableEq, Repr

end Sys2Proof
end

