-- ==== Sys2Proof/WellFormed.lean ====
section
/-! DEFINITION. Well-formedness. A term of `Instr` needs no check: the bounds on its operands are their types
(30_encoding.md R75, R76). What can be ill formed is what the HOST writes: a line of the assembler syntax of
30_encoding.md R80, whose operands are numbers of any size. `AsmLine.inRange` is the check the assembler makes
before it builds a word: it "refuses an operand outside these ranges rather than truncate it". -/

namespace Sys2Proof

/-- Every term of `Instr` is well formed, by the widths of its operands. -/
def Instr.wellFormed (i : Instr) : Bool :=
  match i with
  | .nop => true
  | .init _ => true
  | .absorb _ => true
  | .finalize => true
  | .squeeze => true
  | .rdstat => true

/-- One line of the assembler syntax (30_encoding.md R80), its operand not yet checked. -/
inductive AsmLine where
  | nop
  /-- `INIT <n>`. -/
  | init (n : Int)
  /-- `ABSORB <b>`, the operand a number. -/
  | absorb (b : Int)
  /-- `ABSORB 'a'`, the operand a one-character quoted literal. -/
  | absorbChar (c : Char)
  | finalize
  | squeeze
  | rdstat
  /-- `.word <w>`: any word, "used to write illegal words in tests". -/
  | word (w : Int)
deriving DecidableEq, Repr

/-- The operand lies in the range 30_encoding.md R80 gives it: for INIT "n from 0 to 65535, or −32768 to −1",
for ABSORB "b from 0 to 255" or an ASCII character, for `.word` "any 32-bit value". -/
def AsmLine.inRange (l : AsmLine) : Bool :=
  match l with
  | .nop => true
  | .init n => decide (-32768 ≤ n) && decide (n ≤ 65535)
  | .absorb b => decide (0 ≤ b) && decide (b ≤ 255)
  | .absorbChar c => decide (c.toNat < 128)
  | .finalize => true
  | .squeeze => true
  | .rdstat => true
  | .word w => decide (0 ≤ w) && decide (w < 4294967296)

end Sys2Proof
end

