-- ==== Sys2Proof/Decode.lean ====
section
/-! DEFINITION. The command encoding (30_encoding.md R70 to R78): the three fields, the opcode map as a table of
mask and match, the total decoder, and after it the encoder. -/

namespace Sys2Proof

/-- `OP = w[31:28]` (30_encoding.md R71). -/
def opField (w : Word) : BitVec 4 := w.extractLsb' 28 4

/-- `MBZ = w[27:16]` (R71). -/
def mbzField (w : Word) : BitVec 12 := w.extractLsb' 16 12

/-- `ARG = w[15:0]` (R71). -/
def argField (w : Word) : BitVec 16 := w.extractLsb' 0 16

/-- `decode : Word32 → Command ⊕ Illegal` (R78); `none` is `Illegal`. It reads the word only. The must-be-zero
bits are those of R72 and R73; OP 0x6 to 0xF are reserved (R77). -/
def decode (w : Word) : Option Instr :=
  if mbzField w ≠ 0#12 then none
  else if opField w = 0x0#4 then (if argField w = 0#16 then some .nop else none)
  else if opField w = 0x1#4 then some (.init (argField w))
  else if opField w = 0x2#4 then
    (if w.extractLsb' 8 8 = 0#8 then some (.absorb (w.extractLsb' 0 8)) else none)
  else if opField w = 0x3#4 then (if argField w = 0#16 then some .finalize else none)
  else if opField w = 0x4#4 then (if argField w = 0#16 then some .squeeze else none)
  else if opField w = 0x5#4 then (if argField w = 0#16 then some .rdstat else none)
  else none

/-- A word from its opcode and operand, MBZ zero (30_encoding.md R70). -/
def packWord (op : BitVec 4) (arg : BitVec 16) : Word := op ++ 0#12 ++ arg

/-- The word of a command (30_encoding.md R74, "Exact words"). -/
def encode (i : Instr) : Word :=
  match i with
  | .nop => packWord 0x0#4 0#16
  | .init n => packWord 0x1#4 n
  | .absorb b => packWord 0x2#4 (0#8 ++ b)
  | .finalize => packWord 0x3#4 0#16
  | .squeeze => packWord 0x4#4 0#16
  | .rdstat => packWord 0x5#4 0#16

/-- The `mask` of the command's row in the table of 30_encoding.md R74. -/
def Instr.mask (i : Instr) : Word :=
  match i with
  | .nop => 0xFFFFFFFF#32
  | .init _ => 0xFFFF0000#32
  | .absorb _ => 0xFFFFFF00#32
  | .finalize => 0xFFFFFFFF#32
  | .squeeze => 0xFFFFFFFF#32
  | .rdstat => 0xFFFFFFFF#32

/-- The `match` of the command's row in the table of 30_encoding.md R74. -/
def Instr.matchWord (i : Instr) : Word :=
  match i with
  | .nop => 0x00000000#32
  | .init _ => 0x10000000#32
  | .absorb _ => 0x20000000#32
  | .finalize => 0x30000000#32
  | .squeeze => 0x40000000#32
  | .rdstat => 0x50000000#32

/-- The instruction the decoder reads from an instruction of the opcode table whose bits are `w`, bit 0 the least
significant; every command is one word of 32 bits (R70, R82). -/
def decodeTableWord (nbits w : Nat) : Option Instr := decode (BitVec.ofNat 32 (w % 2 ^ nbits))

end Sys2Proof
end

