-- ==== Sys2Proof/Config.lean ====
section
/-! DEFINITION. What the spec leaves to the implementation: the permutation, the bytes of `S` after a reset, and
the engine's latency (92_eei_decisions.md, "Named parameters left open"). Each is a constant with no body, so no
claim can rest on its value. -/

namespace Sys2Proof

/-- The type of `Permute` (00_scope.md R8): a total, deterministic function of the 200 state bytes. -/
abbrev Permute := StateBytes → StateBytes

/-- The permutation the Permutation Engine applies (00_scope.md R8, U4): a free value. The spec makes it a
parameter and asks a model to keep it opaque (log 1). -/
opaque Config.permute : StateBytes → StateBytes

/-- The bytes `S` holds after the reset number given: unspecified, any value (10_state.md R32, D14, U2): a free
value (log 2). -/
opaque Config.resetBytes : Nat → StateBytes

/-- The cycles beyond the first that the engine takes for its `k`-th request (00_scope.md R10, D16: OPEN, may vary
per call): a free value (log 11). -/
opaque Config.extraLatency : Nat → Nat

/-- `PERM_LATENCY` of the `k`-th request: a natural number, at least 1 (00_scope.md R10). -/
def Config.permLatency (k : Nat) : Nat := Config.extraLatency k + 1

end Sys2Proof
end

