-- ==== Sys2Proof/Machine/State.lean ====
section
/-! DEFINITION. The state of the block as plain data (10_state.md), the reasons a step can stop, and the state after
reset (10_state.md R32). INVENTORY.md lists each field with its rule. -/

namespace Sys2Proof.Machine

/-- `PHASE` (10_state.md R23). The fourth 2-bit value, 0b11, "never held", is no term (log 9). -/
inductive Phase where
  /-- 0b00: no session exists. -/
  | idle
  /-- 0b01: ABSORB and FINALIZE are legal. -/
  | absorbing
  /-- 0b10: SQUEEZE is legal. -/
  | squeezing
deriving DecidableEq, Repr

/-- The response status codes the spec names (60_exceptions.md R200); the reserved codes 5 to 7 are no terms. -/
inductive Status where
  /-- 0: the command succeeded. -/
  | ok
  /-- 1: INIT with a strength other than 128 or 256 (R203). -/
  | unsupportedStrength
  /-- 2: ABSORB, FINALIZE or SQUEEZE in the wrong phase (R204). -/
  | protocolViolation
  /-- 3: a word that names no command (R202). -/
  | illegalCommand
  /-- 4: reserved for a host, never produced by the block (R205). -/
  | resourceExhaustion
deriving DecidableEq, Repr

/-- The three errors a command can be rejected with: `E ∈ {1, 2, 3}` of 60_exceptions.md R201. -/
inductive Error where
  | unsupportedStrength
  | protocolViolation
  | illegalCommand
deriving DecidableEq, Repr

/-- What a command that waits for its permutation still has to do once the result is loaded
(60_exceptions.md R211 step 4). -/
inductive Resume where
  | absorb
  | finalize
  /-- The output byte, read before the permutation (43_squeeze.md R160). -/
  | squeeze (out : Byte)
deriving DecidableEq, Repr

/-- Where the block stands between two clock edges (10_state.md R29, 60_exceptions.md R211,
70_reset_and_hazards.md R235 to R237). BUSY and `rsp_valid` are read off it (log 9). -/
inductive Stage where
  /-- BUSY = 0: a command can be accepted. -/
  | ready
  /-- A word has been accepted and has taken no effect yet. -/
  | executing (w : Word)
  /-- A permutation request is outstanding: the block waits for `perm_done`. -/
  | permuting (k : Resume)
  /-- The permuted bytes are loaded, the command is not yet finished. -/
  | finishing (k : Resume)
  /-- `rsp_valid` = 1: the response is presented until `rsp_ready`. -/
  | responding
deriving DecidableEq, Repr

/-- One response as the host takes it (30_encoding.md R79), with the number of `Permute()` calls its command made
(00_scope.md R13). -/
structure Response where
  status : Status
  data : Word
  perms : Nat
deriving DecidableEq, Repr

/-- The state of the block, with the model's record of its two ports. -/
structure State where
  /-- `PHASE` (10_state.md R23). -/
  phase : Phase
  /-- `STR`: 0 means 128, 1 means 256 (R24). -/
  str : BitVec 1
  /-- `POS` (R26). -/
  pos : BitVec 8
  /-- `S`, the 200 state bytes (R27). -/
  S : StateBytes
  /-- `ERR_UNSUP` (R28). -/
  errUnsup : Bool
  /-- `ERR_PROTO` (R28). -/
  errProto : Bool
  /-- `ERR_ILLEGAL` (R28). -/
  errIllegal : Bool
  /-- BUSY, `rsp_valid` and the command in flight (R29, R34, 60_exceptions.md R211). -/
  stage : Stage
  /-- `perm_req` (R35). -/
  permReq : Bool
  /-- `rsp_status` (R34) while `rsp_valid` = 1; otherwise the model's record of the last response (log 17). -/
  rspStatus : Status
  /-- `rsp_data` (R34) while `rsp_valid` = 1; otherwise the model's record of the last response (log 17). -/
  rspData : Word
  /-- The model's own: `Permute()` calls of the command in progress, or of the last one (00_scope.md R13). -/
  perms : Nat
  /-- The model's own: all permutation events so far (00_scope.md R12, R13). -/
  permCount : Nat
  /-- The model's own: the words the host will present, in order (log 4). -/
  cmdIn : List Word
  /-- The model's own: the responses handed over, newest first (log 8). -/
  rspLog : List Response
  /-- The model's own: which free bytes the next reset edge leaves in `S` (log 2). -/
  resets : Nat
deriving DecidableEq, Repr

/-- The reasons the machine stops. -/
inductive Fault where
  /-- Raised by `xorByte` and `copyByte` (ABSORB, FINALIZE, SQUEEZE) at an offset not below RATE_BYTES, for which
  00_scope.md R12 defines neither primitive. Safe: no state that meets 10_state.md R30 raises it, and where one
  does the model claims nothing (log 7). -/
  | offsetOutsideRate (offset : Nat)
deriving DecidableEq, Repr

/-- The reasons the model gives an instruction no meaning. -/
inductive Refusal where
  /-- Raised by an arm of `exec` whose instruction has no meaning yet; no arm does. Safe. -/
  | notModelled (mnemonic : String)
deriving DecidableEq, Repr

/-- What a step of the machine answers. -/
abbrev Out := Host.Outcome State Fault Refusal

/-- The machine right after reset (10_state.md R32, 70_reset_and_hazards.md R230): IDLE, every register 0, `S`
unspecified bytes, no command in flight. The fields R32 gives no value for are `rspStatus` and `rspData` (log 3)
and the model's own (logs 2, 4, 8). -/
def State.reset : State where
  phase := .idle
  str := 0#1
  pos := 0#8
  S := Config.resetBytes 0
  errUnsup := false
  errProto := false
  errIllegal := false
  stage := .ready
  permReq := false
  rspStatus := .ok
  rspData := 0#32
  perms := 0
  permCount := 0
  cmdIn := []
  rspLog := []
  resets := 1

end Sys2Proof.Machine
end

