-- ==== Sys2Proof/Machine/Operands.lean ====
section
/-! DEFINITION. What the commands operate on: the derived RATE_BYTES, INIT's strength operand, and the offsets ABSORB,
SQUEEZE and FINALIZE reach, none of which is an operand of the command (20_memory.md R51). -/

namespace Sys2Proof.Machine

/-- `RATE_BITS(n) = 1600 − 2 × n` for strength `n` (00_scope.md R6). -/
def rateBits (n : Nat) : Nat := 1600 - 2 * n

/-- The strength `STR` stands for: 0 means 128, 1 means 256 (10_state.md R24). -/
def strengthOf (str : BitVec 1) : Nat := if str = 0#1 then 128 else 256

/-- `RATE_BYTES` (10_state.md R25): 0 while PHASE = IDLE, otherwise RATE_BITS / 8 of the strength, 168 or 136. -/
def State.rateBytes (s : State) : BitVec 8 :=
  if s.phase = .idle then 0#8 else if s.str = 0#1 then 168#8 else 136#8

/-- The value of `STR` for INIT's operand: only 0x0080 (128) and 0x0100 (256) are valid (30_encoding.md R75). -/
def strengthBit (n : BitVec 16) : Option (BitVec 1) :=
  if n = 128#16 then some 0#1 else if n = 256#16 then some 1#1 else none

/-- The offset ABSORB and SQUEEZE reach and at which FINALIZE's pad starts: `POS` (20_memory.md R51). -/
def State.posOffset (s : State) : Nat := s.pos.toNat

/-- The offset of FINALIZE's pad end: `RATE_BYTES − 1` (42_finalize.md R141). -/
def State.padEndOffset (s : State) : Nat := s.rateBytes.toNat - 1

/-- Byte `i` of the 200 (20_memory.md R50); an offset from 200 on names no byte, and no command reads one. -/
def byteAt (S : StateBytes) (i : Nat) : Byte := if h : i < 200 then S[i] else 0#8

/-- The 200 bytes with byte `i` replaced; an offset from 200 on names no byte. -/
def setByte (S : StateBytes) (i : Nat) (v : Byte) : StateBytes := if h : i < 200 then S.set i v else S

/-- All 200 bytes 0x00, as INIT leaves them (40_session_control.md R101). -/
def zeroBytes : StateBytes := Vector.replicate 200 0#8

end Sys2Proof.Machine
end

