-- ==== Sys2Proof/Machine/Flags.lean ====
section
/-! DEFINITION. The flags of the block: the codes of PHASE and of the response status, the three sticky error bits
(10_state.md R28) and the STATUS word that shows them (10_state.md R31). -/

namespace Sys2Proof.Machine

/-- The 2 bits of `PHASE` (10_state.md R23). -/
def Phase.code (p : Phase) : BitVec 2 :=
  match p with
  | .idle => 0b00#2
  | .absorbing => 0b01#2
  | .squeezing => 0b10#2

/-- The 3 bits of `rsp_status` (60_exceptions.md R200). -/
def Status.code (st : Status) : BitVec 3 :=
  match st with
  | .ok => 0#3
  | .unsupportedStrength => 1#3
  | .protocolViolation => 2#3
  | .illegalCommand => 3#3
  | .resourceExhaustion => 4#3

/-- The status a rejected command reports (60_exceptions.md R201). -/
def Error.status (e : Error) : Status :=
  match e with
  | .unsupportedStrength => .unsupportedStrength
  | .protocolViolation => .protocolViolation
  | .illegalCommand => .illegalCommand

/-- Set the sticky bit of an error (60_exceptions.md R201: `case E of 1: ERR_UNSUP <- 1; …`). -/
def setSticky (e : Error) (s : State) : State :=
  match e with
  | .unsupportedStrength => { s with errUnsup := true }
  | .protocolViolation => { s with errProto := true }
  | .illegalCommand => { s with errIllegal := true }

/-- Clear all three sticky bits, as a successful INIT does (10_state.md R28, 40_session_control.md R101). -/
def clearSticky (s : State) : State :=
  { s with errUnsup := false, errProto := false, errIllegal := false }

/-- `STATUS = {0x00, RATE_BYTES[7:0], POS[7:0], 0b0, ERR_ILLEGAL, ERR_PROTO, ERR_UNSUP, 0b0, STR, PHASE[1:0]}`
(10_state.md R31). -/
def State.statusWord (s : State) : Word :=
  0x00#8 ++ s.rateBytes ++ s.pos ++ 0#1 ++ BitVec.ofBool s.errIllegal ++ BitVec.ofBool s.errProto ++
    BitVec.ofBool s.errUnsup ++ 0#1 ++ s.str ++ s.phase.code

end Sys2Proof.Machine
end

