-- ==== Sys2Proof/Machine/Ops.lean ====
section
/-! DEFINITION. The operations the commands share: the pseudocode primitives of 00_scope.md R12, the rejection of a
command (60_exceptions.md R201), and the advance of POS with the block permutation. The block takes no exception
and returns from none (R209): `raise` is all that an error does. -/

namespace Sys2Proof.Machine

/-- One part of a command after another: a part that stops ends the command. -/
def andThen (o : Out) (f : State → Out) : Out :=
  match o with
  | .next s => f s
  | .fault r => .fault r
  | .refused r => .refused r

/-- A command begins: it has made no `Permute()` call yet (00_scope.md R13). -/
def beginCommand (s : State) : State := { s with perms := 0 }

/-- `S <- S'`, all 200 bytes. -/
def setBytes (S' : StateBytes) (s : State) : State := { s with S := S' }

/-- `XorByte(i, b)`: `S[i] <- S[i] ⊕ b`, defined below RATE_BYTES only (00_scope.md R12). -/
def xorByte (i : Nat) (b : Byte) (s : State) : Out :=
  if i < s.rateBytes.toNat then .next (setBytes (setByte s.S i (byteAt s.S i ^^^ b)) s)
  else .fault (.offsetOutsideRate i)

/-- `CopyByte(i)`: `S[i]` with no change to state, defined below RATE_BYTES only (00_scope.md R12). -/
def copyByte (i : Nat) (s : State) : Option Byte :=
  if i < s.rateBytes.toNat then some (byteAt s.S i) else none

/-- One more permutation event (00_scope.md R12, R13). -/
def countPermutation (s : State) : State := { s with perms := s.perms + 1, permCount := s.permCount + 1 }

/-- `Permute()`: `S <- Permute(S)`, one atomic step, one permutation event (00_scope.md R12). -/
def permute (P : Permute) (s : State) : State := countPermutation (setBytes (P s.S) s)

/-- `POS <- v`. -/
def setPos (v : BitVec 8) (s : State) : State := { s with pos := v }

/-- Present a response: `rsp_valid`, `rsp_status` and `rsp_data` (70_reset_and_hazards.md R237). -/
def present (st : Status) (d : Word) (s : State) : State :=
  { s with stage := .responding, rspStatus := st, rspData := d }

/-- Hand the presented response over to the host: BUSY and `rsp_valid` become 0 (10_state.md R29, R34). -/
def handOver (s : State) : State :=
  { s with stage := .ready, rspLog := ⟨s.rspStatus, s.rspData, s.perms⟩ :: s.rspLog }

/-- `respond(st, d)` (00_scope.md R12) as one atomic step: present the response and hand it over. -/
def respond (st : Status) (d : Word) (s : State) : State := handOver (present st d s)

/-- Reject the command, up to the presented response: the sticky bit of `e` is set, data 0x00000000
(60_exceptions.md R201). -/
def presentError (e : Error) (s : State) : State := present e.status 0#32 (setSticky e s)

/-- `raise E` (60_exceptions.md R201): set the sticky bit, respond, and change nothing else. -/
def raise (e : Error) (s : State) : State := handOver (presentError e s)

/-- `POS <- POS + 1`, and if POS is then RATE_BYTES, `Permute()` and `POS <- 0`: the end of ABSORB and SQUEEZE
(41_absorb.md R121, 43_squeeze.md R161). -/
def advancePos (P : Permute) (s : State) : State :=
  let s' := setPos (s.pos + 1#8) s
  if s'.pos = s'.rateBytes then setPos 0#8 (permute P s') else s'

/-- The registers of a fresh session (40_session_control.md R101): `S` zeroed, `STR <- str`, `POS <- 0`,
`PHASE <- ABSORBING`, sticky bits 0. -/
def newSession (str : BitVec 1) (s : State) : State :=
  clearSticky { s with S := zeroBytes, str := str, pos := 0#8, phase := .absorbing }

/-- FINALIZE's two pad bytes (42_finalize.md R141): 0x1F at POS, then 0x80 at RATE_BYTES − 1, both by XOR; the
same byte takes both when POS = RATE_BYTES − 1 (R142). -/
def padBlock (s : State) : Out :=
  andThen (xorByte s.posOffset 0x1F#8 s) fun s1 => xorByte s1.padEndOffset 0x80#8 s1

/-- `PHASE <- SQUEEZING; POS <- 0` (42_finalize.md R144). -/
def enterSqueezing (s : State) : State := { s with phase := .squeezing, pos := 0#8 }

end Sys2Proof.Machine
end

