-- ==== Sys2Proof/Machine/Absorb.lean ====
section
/-! DEFINITION. ABSORB (41_absorb.md R120, R121), over any permutation and at the configured one. -/

namespace Sys2Proof.Machine

/-- ABSORB b over the permutation `P` (R120): legal in ABSORBING; `XorByte(POS, b)`, then POS advances and a full
block is permuted in the same command (R121). -/
def absorbWith (P : Permute) (b : Byte) (s : State) : Out :=
  if s.phase = .absorbing then
    andThen (xorByte s.posOffset b (beginCommand s)) fun s1 => .next (respond .ok 0#32 (advancePos P s1))
  else .next (raise .protocolViolation (beginCommand s))

/-- The meaning of ABSORB. -/
def execAbsorb (b : Byte) (s : State) : Out := absorbWith Config.permute b s

end Sys2Proof.Machine
end

