-- ==== Sys2Proof/Machine/Finalize.lean ====
section
/-! DEFINITION. FINALIZE (42_finalize.md R140 to R146), over any permutation and at the configured one. -/

namespace Sys2Proof.Machine

/-- FINALIZE over the permutation `P` (R140): legal in ABSORBING; the pad bytes (R141, R142), exactly one
`Permute()` (R143), then PHASE becomes SQUEEZING and POS 0 (R144). -/
def finalizeWith (P : Permute) (s : State) : Out :=
  if s.phase = .absorbing then
    andThen (padBlock (beginCommand s)) fun s1 => .next (respond .ok 0#32 (enterSqueezing (permute P s1)))
  else .next (raise .protocolViolation (beginCommand s))

/-- The meaning of FINALIZE. -/
def execFinalize (s : State) : Out := finalizeWith Config.permute s

end Sys2Proof.Machine
end

