-- ==== Sys2Proof/Machine/SessionControl.lean ====
section
/-! DEFINITION. The session control commands NOP, INIT and RDSTAT (40_session_control.md), and the rejection of a word
that names no command (60_exceptions.md R202). -/

namespace Sys2Proof.Machine

/-- NOP (R100): `respond(OK, 0)`. -/
def nopWith (s : State) : Out := .next (respond .ok 0#32 (beginCommand s))

/-- INIT n (R101, R102): in any phase; a strength other than 128 or 256 is rejected before any write. -/
def initWith (n : BitVec 16) (s : State) : Out :=
  match strengthBit n with
  | none => .next (raise .unsupportedStrength (beginCommand s))
  | some str => .next (respond .ok 0#32 (newSession str (beginCommand s)))

/-- RDSTAT (R103): `respond(OK, STATUS)`, nothing changes. -/
def rdstatWith (s : State) : Out := .next (respond .ok s.statusWord (beginCommand s))

/-- The meaning of NOP. -/
def execNop (s : State) : Out := nopWith s

/-- The meaning of INIT. -/
def execInit (n : BitVec 16) (s : State) : Out := initWith n s

/-- The meaning of RDSTAT. -/
def execRdstat (s : State) : Out := rdstatWith s

/-- A word that decodes to no command: rejected with ILLEGAL_COMMAND in any phase (60_exceptions.md R202). -/
def execIllegal (s : State) : Out := .next (raise .illegalCommand (beginCommand s))

end Sys2Proof.Machine
end

