-- ==== Sys2Proof/Machine/Squeeze.lean ====
section
/-! DEFINITION. SQUEEZE (43_squeeze.md R160, R161), over any permutation and at the configured one. -/

namespace Sys2Proof.Machine

/-- `zext_32(out)`: the response data of a SQUEEZE (30_encoding.md R79). -/
def outputWord (out : Byte) : Word := 0#24 ++ out

/-- SQUEEZE over the permutation `P` (R160): legal in SQUEEZING; the byte at POS is read before any permutation,
then POS advances and a used-up block is permuted in the same command (R161). -/
def squeezeWith (P : Permute) (s : State) : Out :=
  if s.phase = .squeezing then
    match copyByte s.posOffset s with
    | some out => .next (respond .ok (outputWord out) (advancePos P (beginCommand s)))
    | none => .fault (.offsetOutsideRate s.posOffset)
  else .next (raise .protocolViolation (beginCommand s))

/-- The meaning of SQUEEZE. -/
def execSqueeze (s : State) : Out := squeezeWith Config.permute s

end Sys2Proof.Machine
end

