-- ==== Sys2Proof/Machine/Dispatch.lean ====
section
/-! DEFINITION. The dispatch of a decoded command to its meaning, one arm per constructor of `Instr`. -/

namespace Sys2Proof.Machine

/-- The effect of one decoded command, with the response it gives (00_scope.md R14). -/
def exec (i : Instr) (s : State) : Host.Outcome State Fault Refusal :=
  match i with
  | .nop => Sys2Proof.Machine.execNop s
  | .init n => Sys2Proof.Machine.execInit n s
  | .absorb b => Sys2Proof.Machine.execAbsorb b s
  | .finalize => Sys2Proof.Machine.execFinalize s
  | .squeeze => Sys2Proof.Machine.execSqueeze s
  | .rdstat => Sys2Proof.Machine.execRdstat s

end Sys2Proof.Machine
end

