-- ==== Sys2Proof/Machine/InFlight.lean ====
section
/-! DEFINITION. A command word from acceptance to response: decode and execute (60_exceptions.md R206), and, for a state
between two clock edges, the rest of the command that is in flight (60_exceptions.md R211). -/

namespace Sys2Proof.Machine

/-- Execute a command word (60_exceptions.md R206): decode first, then the command's own checks. -/
def execWord (w : Word) (s : State) : Out :=
  match decode w with
  | some i => exec i s
  | none => execIllegal s

/-- Load all 200 bytes of `S` from the engine's answer; the request is no longer outstanding
(60_exceptions.md R211 step 3). -/
def loadPermuted (S' : StateBytes) (s : State) : State := { s with S := S', permReq := false }

/-- Finish a command whose permutation is done (60_exceptions.md R211 step 4): `POS <- 0`, and for FINALIZE
`PHASE <- SQUEEZING`; then present the response. -/
def finishCommand (k : Resume) (s : State) : State :=
  match k with
  | .absorb => present .ok 0#32 (setPos 0#8 s)
  | .finalize => present .ok 0#32 (enterSqueezing s)
  | .squeeze out => present .ok (outputWord out) (setPos 0#8 s)

/-- Complete the command in flight as one atomic step, the engine answering its request with `Config.permute`
(60_exceptions.md R212) and the host taking the response; a state with no command in flight is left alone
(log 6). -/
def completeInFlight (s : State) : Out :=
  match s.stage with
  | .ready => .next s
  | .executing w => execWord w s
  | .permuting k => .next (handOver (finishCommand k (loadPermuted (Config.permute s.S) s)))
  | .finishing k => .next (handOver (finishCommand k s))
  | .responding => .next (handOver s)

/-- The word the host presents next, taken off its list. -/
def fetchCommand (s : State) : Option (Word × State) :=
  match s.cmdIn with
  | [] => none
  | w :: rest => some (w, { s with cmdIn := rest })

/-- Accept the next command and execute it; with none presented nothing happens (60_exceptions.md R216,
log 4). -/
def acceptAndExecute (s : State) : Out :=
  match fetchCommand s with
  | none => .next s
  | some (w, s1) => execWord w s1

/-- The host presents `w` next to a block that can accept it. -/
def presentWord (w : Word) (s : State) : State :=
  { s with stage := .ready, permReq := false, cmdIn := w :: s.cmdIn }

end Sys2Proof.Machine
end

