-- ==== Sys2Proof/Machine/Step.lean ====
section
/-! DEFINITION. One step of the machine at the level of commands (00_scope.md R14): the controller accepts one command
word, performs all of its effects with any permutation, and gives its response. -/

namespace Sys2Proof.Machine

/-- One step. A block that can accept (BUSY = 0) takes the next word the host presents; a block with a command in
flight, which accepts none (70_reset_and_hazards.md R236), completes that command first. -/
def step (s : State) : Host.Outcome State Fault Refusal :=
  match s.stage with
  | .ready => acceptAndExecute s
  | _ => completeInFlight s

/-- The state with one instruction of the opcode table placed where `step` takes its next command: presented by the
host, ahead of its other words, to a block that can accept it (log 4). -/
def State.withFetchWord (s : State) (nbits w : Nat) : State := presentWord (BitVec.ofNat 32 (w % 2 ^ nbits)) s

end Sys2Proof.Machine
end

