-- ==== Sys2Proof/Machine/Assembler.lean ====
section
/-! DEFINITION. The assembler syntax of 30_encoding.md R80: from text (a list of characters) to lines, and from a line to
its command word. Host-side: the block sees words only. -/

namespace Sys2Proof.Machine

/-- The word of a line whose operand is in range (R80); an operand out of range is refused, never truncated. -/
def assembleLine (l : AsmLine) : Option Word :=
  if l.inRange then
    match l with
    | .nop => some (encode .nop)
    | .init n => some (encode (.init (BitVec.ofInt 16 n)))
    | .absorb b => some (encode (.absorb (BitVec.ofInt 8 b)))
    | .absorbChar c => some (encode (.absorb (BitVec.ofNat 8 c.toNat)))
    | .finalize => some (encode .finalize)
    | .squeeze => some (encode .squeeze)
    | .rdstat => some (encode .rdstat)
    | .word w => some (BitVec.ofInt 32 w)
  else none

/-- "Case does not matter" (R80): an ASCII capital as its small letter. -/
def lowerChar (c : Char) : Char := if 65 ≤ c.toNat ∧ c.toNat ≤ 90 then Char.ofNat (c.toNat + 32) else c

/-- What separates a mnemonic from its operand. -/
def isBlank (c : Char) : Bool := c == ' ' || c == '\t' || c == '\r'

/-- A line cut into tokens: blanks separate them, `;` starts a comment, a quoted character is one token
(log 14). `cur` holds the characters of the token being read, last first. -/
def tokens (cur : List Char) (line : List Char) : List (List Char) :=
  match line with
  | [] => if cur.isEmpty then [] else [cur.reverse]
  | '\'' :: c :: '\'' :: rest =>
    (if cur.isEmpty then [] else [cur.reverse]) ++ ['\'', c, '\''] :: tokens [] rest
  | c :: rest =>
    if c = ';' then (if cur.isEmpty then [] else [cur.reverse])
    else if isBlank c then (if cur.isEmpty then [] else [cur.reverse]) ++ tokens [] rest
    else tokens (c :: cur) rest

/-- The value of a digit, where the base has it. -/
def digitValue (base : Nat) (c : Char) : Option Nat :=
  let n := (lowerChar c).toNat
  let d := if 48 ≤ n ∧ n ≤ 57 then n - 48 else if 97 ≤ n ∧ n ≤ 102 then n - 87 else 16
  if d < base then some d else none

/-- Digits after those already read, most significant first. -/
def digitsFrom (base : Nat) (acc : Nat) (ds : List Char) : Option Nat :=
  match ds with
  | [] => some acc
  | d :: rest =>
    match digitValue base d with
    | some v => digitsFrom base (acc * base + v) rest
    | none => none

/-- At least one digit. -/
def digits (base : Nat) (ds : List Char) : Option Nat := if ds.isEmpty then none else digitsFrom base 0 ds

/-- "Numbers are decimal, or hexadecimal with `0x`" (R80). -/
def parseNatural (t : List Char) : Option Nat :=
  match t with
  | '0' :: x :: rest => if lowerChar x = 'x' then digits 16 rest else digits 10 t
  | _ => digits 10 t

/-- A number, with a minus sign for the negative strengths of R80. -/
def parseNumber (t : List Char) : Option Int :=
  match t with
  | '-' :: rest => (parseNatural rest).map fun n => -(n : Int)
  | _ => (parseNatural t).map fun n => (n : Int)

/-- The operand of ABSORB: a number or a quoted character. -/
def parseAbsorb (t : List Char) : Option AsmLine :=
  match t with
  | ['\'', c, '\''] => some (.absorbChar c)
  | _ => (parseNumber t).map AsmLine.absorb

/-- A line of tokens: a mnemonic, then at most one operand (R80). -/
def parseTokens (ts : List (List Char)) : Option AsmLine :=
  match ts with
  | [m] =>
    let m := m.map lowerChar
    if m = ['n', 'o', 'p'] then some .nop
    else if m = ['f', 'i', 'n', 'a', 'l', 'i', 'z', 'e'] then some .finalize
    else if m = ['s', 'q', 'u', 'e', 'e', 'z', 'e'] then some .squeeze
    else if m = ['r', 'd', 's', 't', 'a', 't'] then some .rdstat
    else none
  | [m, a] =>
    let m := m.map lowerChar
    if m = ['i', 'n', 'i', 't'] then (parseNumber a).map AsmLine.init
    else if m = ['a', 'b', 's', 'o', 'r', 'b'] then parseAbsorb a
    else if m = ['.', 'w', 'o', 'r', 'd'] then (parseNumber a).map AsmLine.word
    else none
  | _ => none

/-- The word of each line that holds a command; `none` where a line is not of the syntax or its operand is refused.
`line` is one command per line (R80); an empty or comment line holds none. -/
def assembleLines (lines : List (List Char)) : Option (List Word) :=
  match lines with
  | [] => some []
  | line :: rest =>
    let ts := tokens [] line
    if ts.isEmpty then assembleLines rest
    else
      match parseTokens ts with
      | none => none
      | some l =>
        match assembleLine l, assembleLines rest with
        | some w, some ws => some (w :: ws)
        | _, _ => none

/-- The lines of a text. -/
def textLines (cur : List Char) (text : List Char) : List (List Char) :=
  match text with
  | [] => [cur.reverse]
  | c :: rest => if c = '\n' then cur.reverse :: textLines [] rest else textLines (c :: cur) rest

/-- The command words of an assembler text (R80). -/
def assemble (text : List Char) : Option (List Word) := assembleLines (textLines [] text)

end Sys2Proof.Machine
end

