-- ==== Sys2Proof/Machine/Transaction.lean ====
section
/-! DEFINITION. The block as a function of the permutation, as 00_scope.md R14 writes it
(`step : Permute → State → CmdWord → State × Response × PermCount`), and runs of several commands.
`exec` and `execWord` are these at `Config.permute`. -/

namespace Sys2Proof.Machine

/-- The effect of one decoded command over the permutation `P`. -/
def execWith (P : Permute) (i : Instr) (s : State) : Out :=
  match i with
  | .nop => nopWith s
  | .init n => initWith n s
  | .absorb b => absorbWith P b s
  | .finalize => finalizeWith P s
  | .squeeze => squeezeWith P s
  | .rdstat => rdstatWith s

/-- The effect of one command word over the permutation `P`. -/
def execWordWith (P : Permute) (w : Word) (s : State) : Out :=
  match decode w with
  | some i => execWith P i s
  | none => execIllegal s

/-- The transaction of 00_scope.md R14: the next state, the response with its permutation count, or `none` where
the command stops (which no state that meets 10_state.md R30 does). -/
def transact (P : Permute) (s : State) (w : Word) : Option (State × Response) :=
  match execWordWith P w s with
  | .next t => some (t, ⟨t.rspStatus, t.rspData, t.perms⟩)
  | .fault _ => none
  | .refused _ => none

/-- Commands one after another, in acceptance order (20_memory.md R61). -/
def runCommands (P : Permute) (is : List Instr) (s : State) : Out :=
  match is with
  | [] => .next s
  | i :: rest => andThen (execWith P i s) (runCommands P rest)

/-- Command words one after another, legal or not. -/
def runWords (P : Permute) (ws : List Word) (s : State) : Out :=
  match ws with
  | [] => .next s
  | w :: rest => andThen (execWordWith P w s) (runWords P rest)

/-- The data bytes of the last `n` responses, in response order: what `n` SQUEEZE commands returned
(30_encoding.md R81). -/
def lastBytes (n : Nat) (s : State) : List Byte :=
  ((s.rspLog.take n).map fun r => r.data.extractLsb' 0 8).reverse

end Sys2Proof.Machine
end

