-- ==== Sys2Proof/Machine/Pseudo.lean ====
section
/-! DEFINITION. The host-side pseudo-commands ABSORB_BYTES, SQUEEZE_N and COMPUTE (30_encoding.md R81). They expand to
commands; the block knows nothing of them. -/

namespace Sys2Proof.Machine

/-- `ABSORB_BYTES b0, b1, …` (R81): one ABSORB a byte, in order; none for the empty string. -/
def absorbBytes (m : List Byte) : List Instr := m.map Instr.absorb

/-- `ABSORB_BYTES "text"` (R81): "its bytes in order, with no terminator", for ASCII text (log 15). -/
def absorbText (text : List Char) : Option (List Instr) :=
  if text.all (fun c => c.toNat < 128) then some (absorbBytes (text.map fun c => BitVec.ofNat 8 c.toNat)) else none

/-- `SQUEEZE_N n` (R81): `n` SQUEEZE commands. -/
def squeezeN (n : Nat) : List Instr := List.replicate n Instr.squeeze

/-- What COMPUTE reports: a status, and the output bytes (R81). -/
structure ComputeResult where
  status : Status
  bytes : List Byte
deriving DecidableEq, Repr

/-- The commands of COMPUTE after its INIT (R81). -/
def computeRest (m : List Byte) (n : Nat) : List Instr := absorbBytes m ++ .finalize :: squeezeN n

/-- The words a host sends for `COMPUTE s, m, n` at a strength that INIT accepts (R81). -/
def computeWords (strength : Nat) (m : List Byte) (n : Nat) : List Word :=
  (Instr.init (BitVec.ofNat 16 strength) :: computeRest m n).map encode

/-- `COMPUTE s, m, n` (R81), with no other command in between: INIT; if its status is not OK, stop and report it;
otherwise the rest, and report OK with the `n` bytes. A strength that the 16-bit field cannot hold is refused by the
host, which sends no command (R75). -/
def compute (P : Permute) (strength : Int) (m : List Byte) (n : Nat) (s : State) :
    Host.Outcome (ComputeResult × State) Fault Refusal :=
  if strength < -32768 ∨ 65535 < strength then .next (⟨.unsupportedStrength, []⟩, s)
  else
    match execWith P (.init (BitVec.ofInt 16 strength)) s with
    | .next s1 =>
      if s1.rspStatus = .ok then
        match runCommands P (computeRest m n) s1 with
        | .next s2 => .next (⟨.ok, lastBytes n s2⟩, s2)
        | .fault r => .fault r
        | .refused r => .refused r
      else .next (⟨s1.rspStatus, []⟩, s1)
    | .fault r => .fault r
    | .refused r => .refused r

end Sys2Proof.Machine
end

