-- ==== Sys2Proof/Machine/Sponge.lean ====
section
/-! DEFINITION. The sponge function a session computes, written block by block from 20_memory.md R54 and R67 and
42_finalize.md R141 to R145, over any permutation: what the byte-at-a-time commands are compared with. It is no part of
the machine. -/

namespace Sys2Proof.Machine

/-- XOR a block into the state, byte `j` of the block at offset `j` (20_memory.md R54); offsets past the block's end
are unchanged. -/
def xorBlock (S : StateBytes) (block : List Byte) : StateBytes :=
  Vector.ofFn fun j : Fin 200 => S[j] ^^^ block.getD j.val 0#8

/-- What a message absorbed from position `p` puts at offset `j` of block `q`: its byte `k` with
`p + k = q × rate + j`, which is "XORed into `S[k mod RATE_BYTES]`" after `k div RATE_BYTES` permutations, counting
positions from the start of the block `p` stands in (20_memory.md R54); 0x00 where it has no such byte. -/
def messageByteAt (rate p : Nat) (m : List Byte) (q j : Nat) : Byte :=
  if j < rate ∧ p ≤ q * rate + j then m.getD (q * rate + j - p) 0#8 else 0#8

/-- The bytes that a message absorbed from position `p` puts into block `q`. -/
def messageBlock (rate p : Nat) (m : List Byte) (q : Nat) : List Byte :=
  (List.range rate).map (messageByteAt rate p m q)

/-- `S` with a message absorbed into it from position `p`, after `q` permutations: block 0 is XORed into the state
there was, and each block that follows into the permutation of the state before it (41_absorb.md R121). -/
def absorbedState (P : Permute) (rate p : Nat) (m : List Byte) (S : StateBytes) (q : Nat) : StateBytes :=
  match q with
  | 0 => xorBlock S (messageBlock rate p m 0)
  | q + 1 => xorBlock (P (absorbedState P rate p m S q)) (messageBlock rate p m (q + 1))

/-- The pad of the last block as a mask over the whole block: 0x1F at the first free position `p`, 0x80 at
`rate − 1`, both in one byte where they coincide (42_finalize.md R141, R142). -/
def padMask (rate p : Nat) : List Byte :=
  (List.range rate).map fun j => (if j = p then 0x1F#8 else 0#8) ^^^ (if j = rate - 1 then 0x80#8 else 0#8)

/-- The state after FINALIZE: the whole message absorbed into zero bytes, the pad XORed in, then one permutation
(42_finalize.md R143). -/
def finalizedState (P : Permute) (rate : Nat) (m : List Byte) : StateBytes :=
  P (xorBlock (absorbedState P rate 0 m zeroBytes (m.length / rate)) (padMask rate (m.length % rate)))

/-- The state permuted `k` more times. -/
def permutedTimes (P : Permute) (k : Nat) (S : StateBytes) : StateBytes :=
  match k with
  | 0 => S
  | k + 1 => P (permutedTimes P k S)

/-- Output byte `j`: "`S[j mod RATE_BYTES]`, read after `1 + j div RATE_BYTES` permutations since FINALIZE began,
counting FINALIZE's own" (20_memory.md R54). -/
def shakeByte (P : Permute) (rate : Nat) (m : List Byte) (j : Nat) : Byte :=
  byteAt (permutedTimes P (j / rate) (finalizedState P rate m)) (j % rate)

/-- `SHAKE_s(m)` truncated to `n` bytes, at strength `s` (20_memory.md R67). -/
def shake (P : Permute) (strength : Nat) (m : List Byte) (n : Nat) : List Byte :=
  (List.range n).map (shakeByte P (rateBits strength / 8) m)

end Sys2Proof.Machine
end

