-- ==== Sys2Proof/Machine/EnginePort.lean ====
section
/-! DEFINITION. The 1600 bits of the engine port (10_state.md R35) and the lanes the 200 bytes stand for in the engine's
contract (20_memory.md R55). -/

namespace Sys2Proof.Machine

/-- `perm_state_o`: byte `S[i]` on bits `[8i+7 : 8i]` (R35), so bit `j` of byte `i` is bit `8i + j`. -/
def packState (S : StateBytes) : BitVec 1600 :=
  BitVec.ofFnLE fun k : Fin 1600 => (S[k.val / 8]'(by omega)).getLsbD (k.val % 8)

/-- The bytes of `perm_state_i`: byte `i` on bits `[8i+7 : 8i]` (R35). -/
def unpackState (x : BitVec 1600) : StateBytes := Vector.ofFn fun i : Fin 200 => x.extractLsb' (8 * i.val) 8

/-- Lane `A[x][y]` of the 200 bytes (20_memory.md R55): byte `i` lies in the lane with `x = (i div 8) mod 5`,
`y = (i div 8) div 5`, at bits `8(i mod 8)` up, each lane little-endian. -/
def lane (S : StateBytes) (x y : Fin 5) : BitVec 64 :=
  BitVec.ofFnLE fun z : Fin 64 => (byteAt S (8 * (5 * y.val + x.val) + z.val / 8)).getLsbD (z.val % 8)

/-- The 200 bytes of 25 lanes, by the mapping of R55. -/
def ofLanes (A : Fin 5 → Fin 5 → BitVec 64) : StateBytes :=
  Vector.ofFn fun i : Fin 200 =>
    (A ⟨i.val / 8 % 5, by omega⟩ ⟨i.val / 8 / 5, by omega⟩).extractLsb' (8 * (i.val % 8)) 8

end Sys2Proof.Machine
end

