-- ==== Sys2Proof/Machine/Ports.lean ====
section
/-! DEFINITION. The block at its ports, one rising edge of `clk` at a time (10_state.md R33 to R36, 60_exceptions.md R211,
70_reset_and_hazards.md R230 to R237). `step` is a whole command at once; `tick` takes it apart at the handshakes. -/

namespace Sys2Proof.Machine

/-- The inputs of the block as a rising edge of `clk` samples them (10_state.md R33 to R36), with one input that is no
pin: `advance` says whether the block's own work gets on at this edge, since the spec fixes no cycle count
(70_reset_and_hazards.md R240, log 10). -/
structure Edge where
  /-- `rst_n`, active low. -/
  rstN : Bool
  cmdValid : Bool
  cmdWord : Word
  rspReady : Bool
  permDone : Bool
  permStateI : BitVec 1600
  advance : Bool
deriving DecidableEq, Repr

/-- `BUSY` (10_state.md R29): 1 from the acceptance of a command until its response is handed over. -/
def State.busy (s : State) : Bool := decide (s.stage ≠ .ready)

/-- `rsp_valid` (10_state.md R34): a response is presented. -/
def State.rspValid (s : State) : Bool := decide (s.stage = .responding)

/-- `rsp_status[2:0]` while a response is presented (10_state.md R34, 60_exceptions.md R200). -/
def State.rspStatusCode (s : State) : BitVec 3 := s.rspStatus.code

/-- `cmd_ready` (10_state.md R33): BUSY = 0 and not in reset. -/
def cmdReady (rstN : Bool) (s : State) : Bool := rstN && !s.busy

/-- `perm_state_o` (10_state.md R35). -/
def State.permStateO (s : State) : BitVec 1600 := packState s.S

/-- The edge accepts a command: `cmd_valid = 1` and `cmd_ready = 1` (10_state.md R33). -/
def accepts (e : Edge) (s : State) : Bool := e.cmdValid && cmdReady e.rstN s

/-- An edge with `rst_n = 0` (70_reset_and_hazards.md R230, R231): every register takes its reset value and `S` holds
unspecified bytes, new ones at each such edge (log 2). The model's record of the ports stays (log 13). -/
def resetEdge (s : State) : State :=
  { State.reset with
    S := Config.resetBytes s.resets
    resets := s.resets + 1
    permCount := s.permCount
    cmdIn := s.cmdIn
    rspLog := s.rspLog }

/-- Raise `perm_req` for one clock cycle and wait (60_exceptions.md R211 steps 1 and 2): one permutation event. -/
def requestPermutation (k : Resume) (s : State) : State :=
  countPermutation { s with stage := .permuting k, permReq := true }

/-- `POS <- POS + 1` of ABSORB and SQUEEZE, up to the request of a block permutation (41_absorb.md R121,
43_squeeze.md R161): with none, the response is presented. -/
def startAdvance (k : Resume) (d : Word) (s : State) : State :=
  let s' := setPos (s.pos + 1#8) s
  if s'.pos = s'.rateBytes then requestPermutation k s' else present .ok d s'

/-- The part of a command before its permutation, if it makes one, else all of it up to the presented response. -/
def startCommand (i : Instr) (s : State) : Out :=
  match i with
  | .nop => .next (present .ok 0#32 s)
  | .init n =>
    match strengthBit n with
    | none => .next (presentError .unsupportedStrength s)
    | some str => .next (present .ok 0#32 (newSession str s))
  | .absorb b =>
    if s.phase = .absorbing then
      andThen (xorByte s.posOffset b s) fun s1 => .next (startAdvance .absorb 0#32 s1)
    else .next (presentError .protocolViolation s)
  | .finalize =>
    if s.phase = .absorbing then andThen (padBlock s) fun s1 => .next (requestPermutation .finalize s1)
    else .next (presentError .protocolViolation s)
  | .squeeze =>
    if s.phase = .squeezing then
      match copyByte s.posOffset s with
      | some out => .next (startAdvance (.squeeze out) (outputWord out) s)
      | none => .fault (.offsetOutsideRate s.posOffset)
    else .next (presentError .protocolViolation s)
  | .rdstat => .next (present .ok s.statusWord s)

/-- The same for a command word, legal or not. -/
def startWord (w : Word) (s : State) : Out :=
  match decode w with
  | some i => startCommand i (beginCommand s)
  | none => .next (presentError .illegalCommand (beginCommand s))

/-- One rising edge of `clk`.
With `rst_n = 0` it is a reset edge (R230).
Ready: a presented command is accepted, the word as it is on this edge (R235).
Waiting for the engine: `perm_req` falls after its one cycle, `perm_done` loads `S` (R211); `perm_done` with no
request outstanding is ignored (R231).
Responding: the response is held until `rsp_ready` (R237). -/
def tick (e : Edge) (s : State) : Out :=
  if e.rstN = false then .next (resetEdge s)
  else
    match s.stage with
    | .ready =>
      if e.cmdValid then
        if e.advance then startWord e.cmdWord s else .next { s with stage := .executing e.cmdWord }
      else .next s
    | .executing w => if e.advance then startWord w s else .next s
    | .permuting k =>
      if e.permDone then
        let s1 := loadPermuted (unpackState e.permStateI) s
        if e.advance then .next (finishCommand k s1) else .next { s1 with stage := .finishing k }
      else .next { s with permReq := false }
    | .finishing k => if e.advance then .next (finishCommand k s) else .next s
    | .responding => if e.rspReady then .next (handOver s) else .next s

/-- Edges one after another. -/
def runEdges (es : List Edge) (s : State) : Out :=
  match es with
  | [] => .next s
  | e :: rest => andThen (tick e s) (runEdges rest)

/-- The engine keeps item 2 of its contract at this edge (60_exceptions.md R212): an answer to an outstanding request
is `Permute` of the state it was given. -/
def engineHonest (P : Permute) (e : Edge) (s : State) : Prop :=
  match s.stage with
  | .permuting _ => e.permDone = true → e.permStateI = packState (P s.S)
  | _ => True

end Sys2Proof.Machine
end

