-- ==== Sys2Proof/Machine/System.lean ====
section
/-! DEFINITION. The block with the parties around it: a Permutation Engine that keeps its contract (60_exceptions.md R212),
and several instances (R213). -/

namespace Sys2Proof.Machine

/-- A Permutation Engine: how many requests it has taken, and the request it works on, with the cycles it still needs. -/
structure Engine where
  taken : Nat
  job : Option (Nat × BitVec 1600)
deriving DecidableEq, Repr

/-- `perm_done`: the request in work needs no more cycles. -/
def Engine.done (g : Engine) : Bool :=
  match g.job with
  | some (0, _) => true
  | _ => false

/-- `perm_state_i`: `Permute` of the state the request came with (R212 item 2) while `perm_done` = 1. What the port shows
while `perm_done` = 0 the spec leaves open (10_state.md R35); DESIGN CHOICE, unsafe: here 0 with no request in work and
the result already while one is (log 22). The block does not read it then. -/
def Engine.result (P : Permute) (g : Engine) : BitVec 1600 :=
  match g.job with
  | some (_, x) => packState (P (unpackState x))
  | none => 0#1600

/-- One edge of the engine: `rst_n` resets it with the block (70_reset_and_hazards.md R231), a request is taken with its
latency, work goes on, and an answer is given for one cycle. `lat k ≥ 1` is the PERM_LATENCY of request `k`
(00_scope.md R10, log 11). -/
def Engine.tick (lat : Nat → Nat) (rstN permReq : Bool) (x : BitVec 1600) (g : Engine) : Engine :=
  if rstN = false then { g with job := none }
  else if permReq then { taken := g.taken + 1, job := some (lat g.taken - 1, x) }
  else
    match g.job with
    | some (n + 1, y) => { g with job := some (n, y) }
    | _ => { g with job := none }

/-- The block and its engine on one clock. -/
structure System where
  block : State
  engine : Engine
deriving DecidableEq, Repr

/-- The pins the host drives, and the block's own pace. -/
structure HostPins where
  rstN : Bool
  cmdValid : Bool
  cmdWord : Word
  rspReady : Bool
  advance : Bool
deriving DecidableEq, Repr

/-- The edge the block sees: the host's pins and the engine's answer. -/
def System.edge (P : Permute) (h : HostPins) (y : System) : Edge :=
  { rstN := h.rstN, cmdValid := h.cmdValid, cmdWord := h.cmdWord, rspReady := h.rspReady,
    permDone := y.engine.done, permStateI := y.engine.result P, advance := h.advance }

/-- One rising edge of `clk` for both. -/
def System.tick (P : Permute) (lat : Nat → Nat) (h : HostPins) (y : System) :
    Host.Outcome System Fault Refusal :=
  match Machine.tick (y.edge P h) y.block with
  | .next s => .next ⟨s, y.engine.tick lat h.rstN y.block.permReq y.block.permStateO⟩
  | .fault r => .fault r
  | .refused r => .refused r

/-- Edges one after another. -/
def System.run (P : Permute) (lat : Nat → Nat) (hs : List HostPins) (y : System) :
    Host.Outcome System Fault Refusal :=
  match hs with
  | [] => .next y
  | h :: rest =>
    match y.tick P lat h with
    | .next y' => y'.run P lat rest
    | .fault r => .fault r
    | .refused r => .refused r

/-- The block with an engine of the configured permutation and latency. -/
def systemTick (h : HostPins) (y : System) : Host.Outcome System Fault Refusal :=
  y.tick Config.permute Config.permLatency h

/-- Several instances (60_exceptions.md R213): a step of instance `k` alone; an instance that stops, or that does not
exist, changes none. -/
def stepInstance (k : Nat) (ys : List State) : List State :=
  match ys[k]? with
  | none => ys
  | some s =>
    match step s with
    | .next s' => ys.set k s'
    | _ => ys

/-- Steps of instances in the order given, each its index: any interleaving of what they do (60_exceptions.md R213). -/
def runInstances (ks : List Nat) (ys : List State) : List State :=
  match ks with
  | [] => ys
  | k :: rest => runInstances rest (stepInstance k ys)

end Sys2Proof.Machine
end

