-- ==== Sys2Proof/Safety.lean ====
section
/-! DEFINITION. What counts as a safe state: the invariants of 10_state.md R30, between commands and while one is in
flight, and the parts of a state that claims compare. -/

namespace Sys2Proof.Machine

/-- Items 2 and 3 of 10_state.md R30: in IDLE, POS and STR are 0; otherwise POS is below RATE_BYTES. Item 1 holds by
the type of `phase`. -/
def betweenCommands (s : State) : Bool :=
  if s.phase = .idle then decide (s.pos = 0#8 ∧ s.str = 0#1) else decide (s.pos.toNat < s.rateBytes.toNat)

/-- A command that waits for its permutation is one its phase allows (60_exceptions.md R204, R211). -/
def resumeAllowed (k : Resume) (p : Phase) : Bool :=
  match k with
  | .absorb => p = .absorbing
  | .finalize => p = .absorbing
  | .squeeze _ => p = .squeezing

/-- The invariant of the block at every clock edge: `betweenCommands` unless a permutation is under way, when POS may
stand at RATE_BYTES (60_exceptions.md R211 step 4); `perm_req` only with a request outstanding. -/
def State.inv (s : State) : Bool :=
  match s.stage with
  | .permuting k => resumeAllowed k s.phase
  | .finishing k => resumeAllowed k s.phase && !s.permReq
  | _ => betweenCommands s && !s.permReq

/-- A successful INIT (30_encoding.md R75). -/
def isSuccessfulInit (i : Instr) : Bool :=
  match i with
  | .init n => decide (n = 128#16 ∨ n = 256#16)
  | _ => false

/-- The session: PHASE, STR, POS and S, which a rejected command leaves unchanged (60_exceptions.md R201). -/
structure Session where
  phase : Phase
  str : BitVec 1
  pos : BitVec 8
  S : StateBytes
deriving DecidableEq, Repr

/-- The session a state holds. -/
def State.session (s : State) : Session := ⟨s.phase, s.str, s.pos, s.S⟩

/-- Everything of a state but the 200 bytes and the data the host was given. -/
structure Control where
  phase : Phase
  str : BitVec 1
  pos : BitVec 8
  errUnsup : Bool
  errProto : Bool
  errIllegal : Bool
  stage : Stage
  rspStatus : Status
  permCount : Nat
  /-- Status and permutation count of each response. -/
  log : List (Status × Nat)
deriving DecidableEq, Repr

/-- The control part of a state: what no permutation can change (95_test_vectors.md: "none of them depends on
`Permute`"). -/
def State.control (s : State) : Control :=
  ⟨s.phase, s.str, s.pos, s.errUnsup, s.errProto, s.errIllegal, s.stage, s.rspStatus, s.permCount,
    s.rspLog.map fun r => (r.status, r.perms)⟩

/-- The status 60_exceptions.md R206 gives a word in a state: decode first, then INIT's strength, then the phase. -/
def expectedStatus (w : Word) (s : State) : Status :=
  match decode w with
  | none => .illegalCommand
  | some .nop => .ok
  | some (.init n) => if n = 128#16 ∨ n = 256#16 then .ok else .unsupportedStrength
  | some (.absorb _) => if s.phase = .absorbing then .ok else .protocolViolation
  | some .finalize => if s.phase = .absorbing then .ok else .protocolViolation
  | some .squeeze => if s.phase = .squeezing then .ok else .protocolViolation
  | some .rdstat => .ok

end Sys2Proof.Machine
end

