-- ==== Sys2Proof/Certificates/Slice0/Obligations.lean ====
section
/-! DEFINITION. What is claimed of the model, each statement with the rule of spec/ it formalises. A statement says
"the command answers `.next …`" where the rule says what the command does, so it is also the statement that the
command completes. -/

open Sys2Proof Sys2Proof.Machine

/-! ### Derived registers -/

/-- 10_state.md R25: RATE_BYTES is 0 in IDLE, 168 for STR = 0 and 136 for STR = 1, that is RATE_BITS / 8. -/
def Obligations.RateBytesFollowsPhaseAndStrength : Prop :=
  ∀ s : State,
    (s.phase = .idle → s.rateBytes = 0#8) ∧
    (s.phase ≠ .idle → s.str = 0#1 → s.rateBytes = 168#8) ∧
    (s.phase ≠ .idle → s.str = 1#1 → s.rateBytes = 136#8) ∧
    (s.phase ≠ .idle → s.rateBytes.toNat = rateBits (strengthOf s.str) / 8)

/-- 10_state.md section 3, the table of R31: every field of the STATUS word at its bits, PHASE by its code (R23). -/
def Obligations.StatusWordShowsEachField : Prop :=
  ∀ s : State,
    s.statusWord.extractLsb' 0 2 =
      (if s.phase = .idle then 0b00#2 else if s.phase = .absorbing then 0b01#2 else 0b10#2) ∧
    s.statusWord.extractLsb' 2 1 = s.str ∧
    s.statusWord.getLsbD 3 = false ∧ s.statusWord.getLsbD 4 = s.errUnsup ∧
    s.statusWord.getLsbD 5 = s.errProto ∧ s.statusWord.getLsbD 6 = s.errIllegal ∧
    s.statusWord.getLsbD 7 = false ∧ s.statusWord.extractLsb' 8 8 = s.pos ∧
    s.statusWord.extractLsb' 16 8 = s.rateBytes ∧ s.statusWord.extractLsb' 24 8 = 0#8

/-! ### What each command does -/

/-- 40_session_control.md R100: NOP is the all-zero word, in every phase it gives OK with data 0 and changes nothing
but the response, and any other word with its opcode is illegal. Here and below `stage`, `rspStatus`, `rspData`,
`perms`, `permCount` and `rspLog` are the response as the host takes it and the model's records of it (00_scope.md
R13, 30_encoding.md R79; logs 8, 17). -/
def Obligations.NopOnlyResponds : Prop :=
  (∀ w : Word, decode w = some .nop ↔ w = 0x00000000#32) ∧
  (∀ w : Word, opField w = 0#4 → w ≠ 0#32 → decode w = none) ∧
  ∀ s : State, exec .nop s = .next { s with
    stage := .ready, rspStatus := .ok, rspData := 0#32, perms := 0, rspLog := ⟨.ok, 0#32, 0⟩ :: s.rspLog }

/-- 40_session_control.md R101, R104: in every phase, INIT 128 and INIT 256 leave exactly a fresh session: S all
zero, STR, POS 0, ABSORBING, sticky bits 0. -/
def Obligations.InitCreatesAFreshSession : Prop :=
  ∀ (s : State) (n : BitVec 16) (str : BitVec 1), (n = 128#16 ∧ str = 0#1) ∨ (n = 256#16 ∧ str = 1#1) →
    decode (0x10000000#32 ||| n.setWidth 32) = some (.init n) ∧ exec (.init n) s = .next { s with
      phase := .absorbing, str := str, pos := 0#8, S := Vector.replicate 200 0#8,
      errUnsup := false, errProto := false, errIllegal := false,
      stage := .ready, rspStatus := .ok, rspData := 0#32, perms := 0, rspLog := ⟨.ok, 0#32, 0⟩ :: s.rspLog }

/-- 40_session_control.md R102: INIT with any other strength sets ERR_UNSUP and responds UNSUPPORTED_STRENGTH; the
session there was, or IDLE, stays. -/
def Obligations.InitRejectsEveryOtherStrength : Prop :=
  ∀ (s : State) (n : BitVec 16), n ≠ 128#16 → n ≠ 256#16 →
    exec (.init n) s = .next { s with
      errUnsup := true, stage := .ready, rspStatus := .unsupportedStrength, rspData := 0#32, perms := 0,
      rspLog := ⟨.unsupportedStrength, 0#32, 0⟩ :: s.rspLog }

/-- 40_session_control.md R103: RDSTAT returns the STATUS word in every phase and changes nothing; in IDLE, where POS
and STR are 0, the word shows the sticky bits alone. -/
def Obligations.RdstatReturnsTheStatusWord : Prop :=
  decode 0x50000000#32 = some .rdstat ∧
  (∀ s : State, exec .rdstat s = .next { s with
    stage := .ready, rspStatus := .ok, rspData := s.statusWord, perms := 0,
    rspLog := ⟨.ok, s.statusWord, 0⟩ :: s.rspLog }) ∧
  ∀ s : State, s.phase = .idle → betweenCommands s = true →
    s.statusWord = 0#25 ++ BitVec.ofBool s.errIllegal ++ BitVec.ofBool s.errProto ++
      BitVec.ofBool s.errUnsup ++ 0#4

/-- 41_absorb.md R120: ABSORB in ABSORBING XORs the byte into S at POS and advances POS; the byte that fills the block
permutes the state and sets POS to 0 in the same command; in another phase it is rejected. -/
def Obligations.AbsorbXorsTheByteAndAdvances : Prop :=
  ∀ (s : State) (b : Byte),
    decode (0x20000000#32 ||| b.setWidth 32) = some (.absorb b) ∧
    (s.phase = .absorbing → s.pos.toNat + 1 < s.rateBytes.toNat →
      exec (.absorb b) s = .next { s with
        S := setByte s.S s.posOffset (byteAt s.S s.posOffset ^^^ b), pos := s.pos + 1#8,
        stage := .ready, rspStatus := .ok, rspData := 0#32, perms := 0, rspLog := ⟨.ok, 0#32, 0⟩ :: s.rspLog }) ∧
    (s.phase = .absorbing → s.pos.toNat + 1 = s.rateBytes.toNat →
      exec (.absorb b) s = .next { s with
        S := Config.permute (setByte s.S s.posOffset (byteAt s.S s.posOffset ^^^ b)), pos := 0#8,
        stage := .ready, rspStatus := .ok, rspData := 0#32, perms := 1, permCount := s.permCount + 1,
        rspLog := ⟨.ok, 0#32, 1⟩ :: s.rspLog }) ∧
    (s.phase ≠ .absorbing →
      exec (.absorb b) s = .next { s with
        errProto := true, stage := .ready, rspStatus := .protocolViolation, rspData := 0#32, perms := 0,
        rspLog := ⟨.protocolViolation, 0#32, 0⟩ :: s.rspLog })

/-- 42_finalize.md R140, R141, R143, R144: FINALIZE in ABSORBING XORs 0x1F at POS and 0x80 at RATE_BYTES − 1, permutes
exactly once, enters SQUEEZING with POS 0; in another phase it is rejected with no effect on the state. -/
def Obligations.FinalizePadsPermutesAndSqueezes : Prop :=
  decode 0x30000000#32 = some .finalize ∧ ∀ s : State,
    (s.phase = .absorbing → s.pos.toNat < s.rateBytes.toNat →
      ∃ S1 : StateBytes,
        (∀ a, byteAt S1 a = byteAt s.S a ^^^ (if a = s.pos.toNat then 0x1F#8 else 0#8) ^^^
          (if a = s.rateBytes.toNat - 1 then 0x80#8 else 0#8)) ∧
        exec .finalize s = .next { s with
          S := Config.permute S1, phase := .squeezing, pos := 0#8,
          stage := .ready, rspStatus := .ok, rspData := 0#32, perms := 1, permCount := s.permCount + 1,
          rspLog := ⟨.ok, 0#32, 1⟩ :: s.rspLog }) ∧
    (s.phase ≠ .absorbing →
      exec .finalize s = .next { s with
        errProto := true, stage := .ready, rspStatus := .protocolViolation, rspData := 0#32, perms := 0,
        rspLog := ⟨.protocolViolation, 0#32, 0⟩ :: s.rspLog })

/-- 42_finalize.md R142: with POS = RATE_BYTES − 1 both masks go into one byte, 0x9F, and the two XORs give the same
in either order. -/
def Obligations.FinalizePadsCoincideInOneByte : Prop :=
  ∀ s : State, s.phase = .absorbing → s.pos.toNat = s.rateBytes.toNat - 1 →
    padBlock s = .next { s with
      S := setByte s.S (s.rateBytes.toNat - 1) (byteAt s.S (s.rateBytes.toNat - 1) ^^^ 0x9F#8) } ∧
    (andThen (xorByte (s.rateBytes.toNat - 1) 0x80#8 s) fun s1 => xorByte s1.posOffset 0x1F#8 s1) = padBlock s ∧
    ∃ t, exec .finalize s = .next t ∧
      t.S = Config.permute (setByte s.S (s.rateBytes.toNat - 1)
        (byteAt s.S (s.rateBytes.toNat - 1) ^^^ 0x9F#8))

/-- 43_squeeze.md R160: SQUEEZE in SQUEEZING returns the byte at POS, zero-extended, as it was before any permutation,
and advances POS; the last byte of a block permutes the state and sets POS to 0 in the same command; in another phase
it is rejected with data 0. -/
def Obligations.SqueezeReturnsTheByteAndAdvances : Prop :=
  decode 0x40000000#32 = some .squeeze ∧ ∀ s : State,
    (s.phase = .squeezing → s.pos.toNat + 1 < s.rateBytes.toNat →
      exec .squeeze s = .next { s with
        pos := s.pos + 1#8, stage := .ready, rspStatus := .ok,
        rspData := (byteAt s.S s.posOffset).setWidth 32, perms := 0,
        rspLog := ⟨.ok, (byteAt s.S s.posOffset).setWidth 32, 0⟩ :: s.rspLog }) ∧
    (s.phase = .squeezing → s.pos.toNat + 1 = s.rateBytes.toNat →
      exec .squeeze s = .next { s with
        S := Config.permute s.S, pos := 0#8, stage := .ready, rspStatus := .ok,
        rspData := (byteAt s.S s.posOffset).setWidth 32, perms := 1, permCount := s.permCount + 1,
        rspLog := ⟨.ok, (byteAt s.S s.posOffset).setWidth 32, 1⟩ :: s.rspLog }) ∧
    (s.phase ≠ .squeezing →
      exec .squeeze s = .next { s with
        errProto := true, stage := .ready, rspStatus := .protocolViolation, rspData := 0#32, perms := 0,
        rspLog := ⟨.protocolViolation, 0#32, 0⟩ :: s.rspLog })

/-- 00_scope.md R14: the machine's commands are the transaction function at the configured permutation (a tie between
two of the model's own functions). -/
def Obligations.ExecIsTheTransactionAtTheConfiguredPermutation : Prop :=
  ∀ (i : Instr) (s : State), exec i s = execWith Config.permute i s

/-! ### What each command leaves unchanged -/

/-- Frame of NOP, RDSTAT and INIT: NOP and RDSTAT change no register, no sticky bit and no byte; INIT changes nothing
outside the session and the sticky bits, and rejected it changes ERR_UNSUP alone. The response registers and the
model's record of responses are what every command writes. -/
def Obligations.FrameOfSessionControlCommands : Prop :=
  (∀ s t : State, exec .nop s = .next t ∨ exec .rdstat s = .next t →
    (∀ a, byteAt t.S a = byteAt s.S a) ∧ t.phase = s.phase ∧ t.str = s.str ∧ t.pos = s.pos ∧
    t.errUnsup = s.errUnsup ∧ t.errProto = s.errProto ∧ t.errIllegal = s.errIllegal ∧
    t.permReq = s.permReq ∧ t.permCount = s.permCount ∧ t.cmdIn = s.cmdIn ∧ t.resets = s.resets) ∧
  (∀ (s t : State) (n : BitVec 16), exec (.init n) s = .next t →
    t.permReq = s.permReq ∧ t.permCount = s.permCount ∧ t.cmdIn = s.cmdIn ∧ t.resets = s.resets ∧
    (t.rspStatus ≠ .ok →
      (∀ a, byteAt t.S a = byteAt s.S a) ∧ t.phase = s.phase ∧ t.str = s.str ∧ t.pos = s.pos ∧
      t.errProto = s.errProto ∧ t.errIllegal = s.errIllegal))

/-- Frame of ABSORB (41_absorb.md R123): it changes no register but POS (and, rejected, ERR_PROTO); the bytes are those
before with the one at POS changed, permuted when the command permutes; the capacity region is among the bytes left
alone. -/
def Obligations.FrameOfAbsorb : Prop :=
  ∀ (s t : State) (b : Byte), exec (.absorb b) s = .next t →
    t.phase = s.phase ∧ t.str = s.str ∧ t.errUnsup = s.errUnsup ∧ t.errIllegal = s.errIllegal ∧
    t.permReq = s.permReq ∧ t.cmdIn = s.cmdIn ∧ t.resets = s.resets ∧
    (t.rspStatus = .ok → t.errProto = s.errProto) ∧
    (t.rspStatus ≠ .ok → t.pos = s.pos ∧ t.permCount = s.permCount ∧ ∀ a, byteAt t.S a = byteAt s.S a) ∧
    ∃ S1 : StateBytes, (∀ a, a ≠ s.posOffset → byteAt S1 a = byteAt s.S a) ∧
      ((t.perms = 0 ∧ t.S = S1) ∨ (t.perms = 1 ∧ t.S = Config.permute S1))

/-- Frame of FINALIZE: it changes no register but PHASE and POS (and, rejected, ERR_PROTO); the bytes the permutation
receives are those before but for the two pad bytes. -/
def Obligations.FrameOfFinalize : Prop :=
  ∀ s t : State, exec .finalize s = .next t →
    t.str = s.str ∧ t.errUnsup = s.errUnsup ∧ t.errIllegal = s.errIllegal ∧
    t.permReq = s.permReq ∧ t.cmdIn = s.cmdIn ∧ t.resets = s.resets ∧
    (t.rspStatus = .ok → t.errProto = s.errProto ∧
      ∃ S1 : StateBytes, t.S = Config.permute S1 ∧
        ∀ a, a ≠ s.posOffset → a ≠ s.padEndOffset → byteAt S1 a = byteAt s.S a) ∧
    (t.rspStatus ≠ .ok → t.phase = s.phase ∧ t.pos = s.pos ∧ t.permCount = s.permCount ∧
      ∀ a, byteAt t.S a = byteAt s.S a)

/-- Frame of SQUEEZE: it changes no register but POS (and, rejected, ERR_PROTO) and stores no byte: the bytes change
only by a permutation the command makes. -/
def Obligations.FrameOfSqueeze : Prop :=
  ∀ s t : State, exec .squeeze s = .next t →
    t.phase = s.phase ∧ t.str = s.str ∧ t.errUnsup = s.errUnsup ∧ t.errIllegal = s.errIllegal ∧
    t.permReq = s.permReq ∧ t.cmdIn = s.cmdIn ∧ t.resets = s.resets ∧
    (t.rspStatus = .ok → t.errProto = s.errProto) ∧
    (t.rspStatus ≠ .ok → t.pos = s.pos) ∧
    ((t.perms = 0 ∧ t.permCount = s.permCount ∧ ∀ a, byteAt t.S a = byteAt s.S a) ∨
      (t.perms = 1 ∧ t.permCount = s.permCount + 1 ∧ t.S = Config.permute s.S))

/-! ### Decoding -/

/-- 95_test_vectors.md part 3.1 and 30_encoding.md R74: words written out from the encoding decode to their commands,
or to none. -/
def Obligations.SpecWordsDecode : Prop :=
  decode 0b0000_000000000000_0000000000000000#32 = some .nop ∧
  decode 0b0001_000000000000_0000000010000000#32 = some (.init 128#16) ∧
  decode 0b0001_000000000000_0000000100000000#32 = some (.init 256#16) ∧
  decode 0b0001_000000000000_1111111111111111#32 = some (.init 65535#16) ∧
  decode 0b0010_000000000000_0000000001100001#32 = some (.absorb 0x61#8) ∧
  decode 0b0011_000000000000_0000000000000000#32 = some .finalize ∧
  decode 0b0100_000000000000_0000000000000000#32 = some .squeeze ∧
  decode 0b0101_000000000000_0000000000000000#32 = some .rdstat ∧
  decode 0x00000001#32 = none ∧ decode 0x10010080#32 = none ∧ decode 0x20000100#32 = none ∧
  decode 0x30000001#32 = none ∧ decode 0x60000000#32 = none ∧ decode 0xFFFFFFFF#32 = none

/-- 30_encoding.md R74: a word selects a command exactly when it matches the command's row under the row's mask, its
operand being the bits the mask leaves; so no word matches two rows. -/
def Obligations.DecodingFollowsTheOpcodeTable : Prop :=
  ∀ w : Word,
    (w &&& 0xFFFFFFFF#32 = 0x00000000#32 ↔ decode w = some .nop) ∧
    (∀ n, (w &&& 0xFFFF0000#32 = 0x10000000#32 ∧ w.extractLsb' 0 16 = n) ↔ decode w = some (.init n)) ∧
    (∀ b, (w &&& 0xFFFFFF00#32 = 0x20000000#32 ∧ w.extractLsb' 0 8 = b) ↔ decode w = some (.absorb b)) ∧
    (w &&& 0xFFFFFFFF#32 = 0x30000000#32 ↔ decode w = some .finalize) ∧
    (w &&& 0xFFFFFFFF#32 = 0x40000000#32 ↔ decode w = some .squeeze) ∧
    (w &&& 0xFFFFFFFF#32 = 0x50000000#32 ↔ decode w = some .rdstat)

/-- 60_exceptions.md R202: a word is illegal exactly for the causes listed, and then it sets ERR_ILLEGAL, responds
ILLEGAL_COMMAND and changes nothing else; a word that names a command never reports it. -/
def Obligations.IllegalWordsAndTheirRejection : Prop :=
  (∀ w : Word, decode w = none ↔
    (6 ≤ (opField w).toNat ∨ mbzField w ≠ 0#12 ∨
      ((opField w = 0x0#4 ∨ opField w = 0x3#4 ∨ opField w = 0x4#4 ∨ opField w = 0x5#4) ∧ argField w ≠ 0#16) ∨
      (opField w = 0x2#4 ∧ (argField w).extractLsb' 8 8 ≠ 0#8))) ∧
  (∀ (w : Word) (s : State), decode w = none →
    execWord w s = .next { s with
      errIllegal := true, stage := .ready, rspStatus := .illegalCommand, rspData := 0#32, perms := 0,
      rspLog := ⟨.illegalCommand, 0#32, 0⟩ :: s.rspLog }) ∧
  ∀ (w : Word) (s t : State), decode w ≠ none → execWord w s = .next t → t.rspStatus ≠ .illegalCommand

/-- 30_encoding.md R74, R78: decoding the word of any command gives the command back, its operand at every value. -/
def Obligations.DecodeOfEncodeIsTheCommand : Prop :=
  ∀ i : Instr, i.wellFormed = true → decode (encode i) = some i

/-- 30_encoding.md R74, R78: the other direction: a word that decodes to a command is that command's one word. -/
def Obligations.EncodeOfDecodeIsTheWord : Prop :=
  ∀ (w : Word) (i : Instr), decode w = some i → encode i = w

/-- 30_encoding.md R75, R80: the assembler accepts an INIT or ABSORB operand exactly in its range and its word decodes
to that operand; a strength that is not 128 or 256 never turns into one of them. -/
def Obligations.AssemblerNeverTruncates : Prop :=
  (∀ n : Int, (-32768 ≤ n ∧ n ≤ 65535 →
      ∃ w v, assembleLine (.init n) = some w ∧ decode w = some (.init v) ∧
        ((v.toNat : Int) = n ∨ (v.toNat : Int) = n + 65536) ∧
        (v = 128#16 ↔ n = 128) ∧ (v = 256#16 ↔ n = 256)) ∧
    (n < -32768 ∨ 65535 < n → assembleLine (.init n) = none)) ∧
  (∀ b : Int, (0 ≤ b ∧ b ≤ 255 →
      ∃ w v, assembleLine (.absorb b) = some w ∧ decode w = some (.absorb v) ∧ (v.toNat : Int) = b) ∧
    (b < 0 ∨ 255 < b → assembleLine (.absorb b) = none)) ∧
  (∀ w : Word, assembleLine (.word w.toNat) = some w)

/-! ### The step -/

/-- A step of a block that can accept takes the next word the host presents: it is the meaning of the decoded command
with the word taken off the list, or the rejection of a word that names none (00_scope.md R14, 60_exceptions.md
R202). -/
def Obligations.StepRunsTheDecodedCommand : Prop :=
  ∀ (s : State) (w : Word) (rest : List Word), s.stage = .ready → s.cmdIn = w :: rest →
    (∀ i, decode w = some i → step s = exec i { s with cmdIn := rest }) ∧
    (decode w = none → step s = .next { s with
      cmdIn := rest, errIllegal := true, stage := .ready, rspStatus := .illegalCommand, rspData := 0#32, perms := 0,
      rspLog := ⟨.illegalCommand, 0#32, 0⟩ :: s.rspLog })

/-- With no command presented a step changes nothing (60_exceptions.md R216), and a block with a command in flight
accepts none (70_reset_and_hazards.md R236): its step completes that command and leaves the host's list alone, which
is the model's choice of step (log 6). -/
def Obligations.StepWithoutAnAcceptedCommand : Prop :=
  (∀ s : State, s.stage = .ready → s.cmdIn = [] → step s = .next s) ∧
  (∀ s t : State, s.stage ≠ .ready → step s = .next t → t.stage = .ready ∧ t.cmdIn = s.cmdIn)

/-- 60_exceptions.md R206: a command that answers reports the status of the first check that fails: decode, then INIT's
strength, then the phase of ABSORB, FINALIZE and SQUEEZE. -/
def Obligations.ChecksAreMadeInOrder : Prop :=
  ∀ (w : Word) (s t : State), execWord w s = .next t →
    (decode w = none → t.rspStatus = .illegalCommand) ∧
    (∀ n, decode w = some (.init n) →
      t.rspStatus = if n = 128#16 ∨ n = 256#16 then .ok else .unsupportedStrength) ∧
    ((∃ b, decode w = some (.absorb b)) ∨ decode w = some .finalize →
      t.rspStatus = if s.phase = .absorbing then .ok else .protocolViolation) ∧
    (decode w = some .squeeze → t.rspStatus = if s.phase = .squeezing then .ok else .protocolViolation) ∧
    (decode w = some .nop ∨ decode w = some .rdstat → t.rspStatus = .ok) ∧
    t.rspStatus = expectedStatus w s

/-- 60_exceptions.md R201, R207: a rejected command sets the sticky bit of its status, responds with data 0 and leaves
every other register, every byte and the permutation count as they were. -/
def Obligations.RejectionChangesOnlyTheStickyBit : Prop :=
  ∀ (w : Word) (s t : State), execWord w s = .next t → t.rspStatus ≠ .ok →
    ∃ e : Error, t.rspStatus = e.status ∧
      t = { s with
        errUnsup := s.errUnsup || decide (e = .unsupportedStrength)
        errProto := s.errProto || decide (e = .protocolViolation)
        errIllegal := s.errIllegal || decide (e = .illegalCommand)
        stage := .ready, rspStatus := e.status, rspData := 0#32, perms := 0
        rspLog := ⟨e.status, 0#32, 0⟩ :: s.rspLog }

/-- 30_encoding.md R79, 60_exceptions.md R205, 10_state.md R34: every command that answers gives exactly one response,
after which the block is ready; rejected, the data is 0; SQUEEZE's data has bits [31:8] zero; RDSTAT is never rejected;
every other command's data is 0; code 4 is never produced. -/
def Obligations.EachCommandGivesOneResponse : Prop :=
  ∀ (w : Word) (s t : State), execWord w s = .next t →
    t.rspLog = ⟨t.rspStatus, t.rspData, t.perms⟩ :: s.rspLog ∧ t.stage = .ready ∧
    t.rspStatus ≠ .resourceExhaustion ∧
    (t.rspStatus ≠ .ok → t.rspData = 0#32) ∧
    (decode w = some .squeeze → t.rspData.extractLsb' 8 24 = 0#24) ∧
    (decode w = some .rdstat → t.rspStatus = .ok ∧ t.rspData = s.statusWord) ∧
    (decode w ≠ some .squeeze → decode w ≠ some .rdstat → t.rspData = 0#32)

/-- 00_scope.md R13: a command makes 0 or 1 permutations, and the count goes up by as many. -/
def Obligations.PermutationCountPerCommandIsZeroOrOne : Prop :=
  ∀ (w : Word) (s t : State), execWord w s = .next t →
    (t.perms = 0 ∨ t.perms = 1) ∧ t.permCount = s.permCount + t.perms

/-- 10_state.md R28: each sticky bit is set by a rejection with its status, cleared by a successful INIT, and changed by
nothing else; reset clears all three. -/
def Obligations.StickyBitsFollowRejectionsAndInit : Prop :=
  (∀ (w : Word) (s t : State), execWord w s = .next t →
    (∀ n, decode w = some (.init n) → t.rspStatus = .ok →
      t.errUnsup = false ∧ t.errProto = false ∧ t.errIllegal = false) ∧
    ((∀ n, decode w ≠ some (.init n)) ∨ t.rspStatus ≠ .ok →
      t.errUnsup = (s.errUnsup || decide (t.rspStatus = .unsupportedStrength)) ∧
      t.errProto = (s.errProto || decide (t.rspStatus = .protocolViolation)) ∧
      t.errIllegal = (s.errIllegal || decide (t.rspStatus = .illegalCommand)))) ∧
  State.reset.errUnsup = false ∧ State.reset.errProto = false ∧ State.reset.errIllegal = false ∧
  ∀ s : State, (resetEdge s).errUnsup = false ∧ (resetEdge s).errProto = false ∧ (resetEdge s).errIllegal = false

/-! ### Invariants -/

/-- 10_state.md R30: from a state between commands that meets the invariants, every command word answers a next state
that meets them; STR changes only at a successful INIT; PHASE changes only at a successful INIT, to ABSORBING, or at a
successful FINALIZE, from ABSORBING to SQUEEZING. -/
def Obligations.CommandsKeepTheInvariants : Prop :=
  ∀ (w : Word) (s : State), betweenCommands s = true →
    ∃ t, execWord w s = .next t ∧ betweenCommands t = true ∧
      (t.str ≠ s.str → ∃ i, decode w = some i ∧ isSuccessfulInit i = true) ∧
      (t.phase ≠ s.phase →
        (∃ i, decode w = some i ∧ isSuccessfulInit i = true ∧ t.phase = .absorbing) ∨
        (decode w = some .finalize ∧ t.rspStatus = .ok ∧ s.phase = .absorbing ∧ t.phase = .squeezing))

/-- A step from a state that meets the invariant, between commands or with one in flight, never stops and meets the
invariant again (10_state.md R30). -/
def Obligations.StepKeepsTheInvariant : Prop :=
  ∀ s : State, s.inv = true → ∃ t, step s = .next t ∧ t.inv = true

/-- The state after reset meets the invariant. -/
def Obligations.ResetMeetsTheInvariant : Prop :=
  State.reset.inv = true ∧ betweenCommands State.reset = true

/-- Every clock edge, whatever the pins and the engine do, keeps the invariant, and none stops the block
(10_state.md R30, 60_exceptions.md R212). -/
def Obligations.ClockEdgesKeepTheInvariant : Prop :=
  ∀ (e : Edge) (s : State), s.inv = true → ∃ t, tick e s = .next t ∧ t.inv = true

/-! ### Reset -/

/-- 10_state.md R32: the reset values the spec gives. -/
def Obligations.ResetLeavesTheBlockIdle : Prop :=
  State.reset.phase = .idle ∧ State.reset.str = 0#1 ∧ State.reset.rateBytes = 0#8 ∧ State.reset.pos = 0#8 ∧
  State.reset.errUnsup = false ∧ State.reset.errProto = false ∧ State.reset.errIllegal = false ∧
  State.reset.busy = false ∧ cmdReady true State.reset = true ∧ State.reset.rspValid = false ∧
  State.reset.permReq = false ∧ State.reset.statusWord = 0x00000000#32

/-- 70_reset_and_hazards.md R230, R231: an edge with `rst_n` = 0, whatever is in flight and whatever the other pins
hold, leaves the block idle and ready, abandons the command in flight with no response, and takes no permutation
result; while `rst_n` = 0 `cmd_ready` is 0 and nothing is accepted. -/
def Obligations.ResetEdgeAbandonsTheCommandInFlight : Prop :=
  ∀ (e : Edge) (s : State), e.rstN = false →
    cmdReady e.rstN s = false ∧ accepts e s = false ∧
    ∃ t, tick e s = .next t ∧ t.phase = .idle ∧ t.str = 0#1 ∧ t.pos = 0#8 ∧
      t.errUnsup = false ∧ t.errProto = false ∧ t.errIllegal = false ∧
      t.stage = .ready ∧ t.busy = false ∧ t.rspValid = false ∧ t.permReq = false ∧
      t.S = Config.resetBytes s.resets ∧ t.rspLog = s.rspLog ∧ t.permCount = s.permCount

/-- 10_state.md R32: the bytes S holds in IDLE cannot be observed: whatever they are, any run of command words ends
with the same responses and the same control state, and with the same bytes once a session exists. -/
def Obligations.ResetBytesCannotBeObserved : Prop :=
  ∀ (P : Permute) (ws : List Word) (s : State) (S1 S2 : StateBytes),
    s.phase = .idle → betweenCommands s = true →
    ∃ t1 t2, runWords P ws { s with S := S1 } = .next t1 ∧ runWords P ws { s with S := S2 } = .next t2 ∧
      t1.rspLog = t2.rspLog ∧ t1.control = t2.control ∧ (t1.phase ≠ .idle → t1.S = t2.S)

/-! ### Whole runs -/

/-- No status, no permutation count and no register but S depends on the permutation (95_test_vectors.md; 00_scope.md
R8: the controller relies on no property of `Permute`). -/
def Obligations.ControlStateIsIndependentOfThePermutation : Prop :=
  ∀ (P Q : Permute) (ws : List Word) (s t : State), runWords P ws s = .next t →
    ∃ t', runWords Q ws s = .next t' ∧ t'.control = t.control

/-- 20_memory.md R67: after a successful INIT nothing depends on what was before: the same words give the same session,
sticky bits and responses from any two states. -/
def Obligations.InitForgetsThePast : Prop :=
  ∀ (P : Permute) (i : Instr) (ws : List Word) (s1 s2 t1 : State), isSuccessfulInit i = true →
    runWords P (encode i :: ws) s1 = .next t1 →
    ∃ t2, runWords P (encode i :: ws) s2 = .next t2 ∧ t1.session = t2.session ∧
      t1.errUnsup = t2.errUnsup ∧ t1.errProto = t2.errProto ∧ t1.errIllegal = t2.errIllegal ∧
      t1.rspLog.take (ws.length + 1) = t2.rspLog.take (ws.length + 1)

/-- Running the host's machine for as many steps as there are presented words is running the words, in order
(20_memory.md R61). -/
def Obligations.CoreRunIsTheRunOfThePresentedWords : Prop :=
  ∀ (ws rest : List Word) (s : State), s.stage = .ready → s.cmdIn = ws ++ rest →
    Host.Core.run Sys2Proof.core ws.length s = runWords Config.permute ws { s with cmdIn := rest }

/-- 20_memory.md R67: COMPUTE at strength 128 or 256, from any state, returns the sponge function of the message,
block by block as R54 and 42_finalize.md R141 to R145 give it, truncated to the length asked, and leaves the block
SQUEEZING; this for every permutation. -/
def Obligations.ComputeReturnsTheSpongeFunction : Prop :=
  ∀ (P : Permute) (strength : Nat) (m : List Byte) (n : Nat) (s : State), strength = 128 ∨ strength = 256 →
    ∃ t, compute P strength m n s = .next (⟨.ok, shake P strength m n⟩, t) ∧ t.phase = .squeezing ∧
      t.errUnsup = false ∧ t.errProto = false ∧ t.errIllegal = false

/-- 30_encoding.md R75, R81: COMPUTE with any other strength, of any width and sign, stops at the failed INIT, reports
UNSUPPORTED_STRENGTH and absorbs nothing into the session there was. -/
def Obligations.ComputeStopsAtAnUnsupportedStrength : Prop :=
  ∀ (P : Permute) (strength : Int) (m : List Byte) (n : Nat) (s : State), strength ≠ 128 → strength ≠ 256 →
    ∃ t, compute P strength m n s = .next (⟨.unsupportedStrength, []⟩, t) ∧ t.session = s.session

/-- 20_memory.md R65, R54: absorbing a whole message is absorbing its parts, at every split, and from every ABSORBING
state between commands both end in the one state that the message, the starting state and the permutation give: byte `k`
is XORed in at (POS + k) mod RATE_BYTES after (POS + k) div RATE_BYTES permutations (`absorbedState`, log 21), POS is
(POS + L) mod RATE_BYTES, PHASE, STR and the sticky bits stay, and the `L` responses are OK with data 0. -/
def Obligations.AbsorbIsInvariantUnderChunking : Prop :=
  ∀ (P : Permute) (m1 m2 : List Byte) (s : State),
    runCommands P (absorbBytes (m1 ++ m2)) s =
      andThen (runCommands P (absorbBytes m1) s) (runCommands P (absorbBytes m2)) ∧
    (s.phase = .absorbing → betweenCommands s = true →
      ∃ t, runCommands P (absorbBytes (m1 ++ m2)) s = .next t ∧
        t.S = absorbedState P s.rateBytes.toNat s.pos.toNat (m1 ++ m2) s.S
          ((s.pos.toNat + (m1 ++ m2).length) / s.rateBytes.toNat) ∧
        t.pos.toNat = (s.pos.toNat + (m1 ++ m2).length) % s.rateBytes.toNat ∧
        t.phase = .absorbing ∧ t.str = s.str ∧
        t.errUnsup = s.errUnsup ∧ t.errProto = s.errProto ∧ t.errIllegal = s.errIllegal ∧
        t.rspLog.drop (m1 ++ m2).length = s.rspLog ∧
        ∀ r ∈ t.rspLog.take (m1 ++ m2).length, r.status = .ok ∧ r.data = 0#32)

/-- NOP, RDSTAT and illegal words anywhere in a run change nothing of the session it ends with (20_memory.md R67,
40_session_control.md R100, R103, 60_exceptions.md R201). -/
def Obligations.InertWordsDoNotDisturbTheSession : Prop :=
  ∀ (P : Permute) (ws : List Word) (s t : State), runWords P ws s = .next t →
    ∃ t', runWords P (ws.filter fun w =>
        decide (decode w ≠ none ∧ decode w ≠ some .nop ∧ decode w ≠ some .rdstat)) s = .next t' ∧
      t'.session = t.session

/-- 20_memory.md R66: `n1` bytes and then `n2` bytes are the `n1 + n2` bytes of one run, and the session ends the
same. -/
def Obligations.SqueezeIsComposable : Prop :=
  ∀ (P : Permute) (n1 n2 : Nat) (s t1 t2 : State),
    runCommands P (squeezeN n1) s = .next t1 → runCommands P (squeezeN n2) t1 = .next t2 →
    ∃ t, runCommands P (squeezeN (n1 + n2)) s = .next t ∧ t.session = t2.session ∧
      lastBytes (n1 + n2) t = lastBytes n1 t1 ++ lastBytes n2 t2

/-- 20_memory.md R68: the output for a shorter length is a prefix of the output for a longer one. -/
def Obligations.ShorterOutputIsAPrefix : Prop :=
  ∀ (P : Permute) (n n' : Nat) (s t t' : State), n ≤ n' →
    runCommands P (squeezeN n) s = .next t → runCommands P (squeezeN n') s = .next t' →
    lastBytes n t = (lastBytes n' t').take n

/-- 41_absorb.md R122: `L` ABSORB commands of a session leave POS at (POS + L) mod RATE_BYTES and make
(POS + L) div RATE_BYTES permutations; from a fresh session, L mod RATE_BYTES and L div RATE_BYTES. -/
def Obligations.AbsorbRunPositionAndPermutations : Prop :=
  ∀ (P : Permute) (m : List Byte) (s : State), s.phase = .absorbing → betweenCommands s = true →
    ∃ t, runCommands P (absorbBytes m) s = .next t ∧ t.phase = .absorbing ∧ t.str = s.str ∧
      t.pos.toNat = (s.pos.toNat + m.length) % s.rateBytes.toNat ∧
      t.permCount = s.permCount + (s.pos.toNat + m.length) / s.rateBytes.toNat

/-- 43_squeeze.md R161, R162: any number `n` of SQUEEZE commands may follow; they leave POS at (POS + n) mod RATE_BYTES
and make (POS + n) div RATE_BYTES permutations. -/
def Obligations.SqueezeRunPositionAndPermutations : Prop :=
  ∀ (P : Permute) (n : Nat) (s : State), s.phase = .squeezing → betweenCommands s = true →
    ∃ t, runCommands P (squeezeN n) s = .next t ∧ t.phase = .squeezing ∧ t.str = s.str ∧
      t.pos.toNat = (s.pos.toNat + n) % s.rateBytes.toNat ∧
      t.permCount = s.permCount + (s.pos.toNat + n) / s.rateBytes.toNat

/-- 42_finalize.md R145: a message of `L` bytes costs L div RATE_BYTES + 1 permutations up to the end of FINALIZE, so
`k × RATE_BYTES` bytes and one byte more both cost `k + 1`. -/
def Obligations.FinalizedMessageCostsOneMorePermutation : Prop :=
  ∀ (P : Permute) (i : Instr) (m : List Byte) (s : State),
    i = .init 128#16 ∨ i = .init 256#16 →
    ∃ t, runCommands P (i :: absorbBytes m ++ [.finalize]) s = .next t ∧ t.phase = .squeezing ∧ t.pos = 0#8 ∧
      t.rateBytes = (if i = .init 128#16 then 168#8 else 136#8) ∧
      t.permCount = s.permCount + m.length / t.rateBytes.toNat + 1

/-- 42_finalize.md R146, R144: from SQUEEZING, whatever words come with no successful INIT among them, the block stays in
SQUEEZING and a FINALIZE is rejected with PROTOCOL_VIOLATION, the session unchanged. -/
def Obligations.FinalizeHappensOncePerSession : Prop :=
  ∀ (P : Permute) (ws : List Word) (s t : State), s.phase = .squeezing →
    (∀ w ∈ ws, ∀ i, decode w = some i → isSuccessfulInit i = false) → runWords P ws s = .next t →
    t.phase = .squeezing ∧ t.str = s.str ∧
    ∃ t', execWith P .finalize t = .next t' ∧ t'.rspStatus = .protocolViolation ∧ t'.session = t.session ∧
      t'.permCount = t.permCount

/-- 20_memory.md R52: the capacity region cannot be observed: whatever it holds, a command gives the same response, and
if it does not permute, the same bytes of the rate region. -/
def Obligations.CapacityBytesDoNotShow : Prop :=
  ∀ (w : Word) (s t : State) (S' : StateBytes),
    (∀ a, a < s.rateBytes.toNat → byteAt S' a = byteAt s.S a) → execWord w s = .next t →
    ∃ t', execWord w { s with S := S' } = .next t' ∧
      t'.rspStatus = t.rspStatus ∧ t'.rspData = t.rspData ∧ t'.perms = t.perms ∧ t'.control = t.control ∧
      (t.perms = 0 → ∀ a, a < s.rateBytes.toNat → byteAt t'.S a = byteAt t.S a)

/-! ### The engine port -/

/-- 10_state.md R35: bit `j` of byte `i` is bit `8i + j` of the port, and packing and unpacking undo each other. -/
def Obligations.EnginePortCarriesEveryByte : Prop :=
  (∀ (S : StateBytes) (i j : Nat), i < 200 → j < 8 →
    (packState S).getLsbD (8 * i + j) = (byteAt S i).getLsbD j) ∧
  (∀ S : StateBytes, unpackState (packState S) = S) ∧
  (∀ x : BitVec 1600, packState (unpackState x) = x)

/-- 20_memory.md R55: byte `i` is bits 8(i mod 8) to 8(i mod 8) + 7 of lane A[(i div 8) mod 5][(i div 8) div 5], lanes
and bytes determine each other, and the port numbers the lanes' bits in the same order. -/
def Obligations.LanesHoldTheBytesLittleEndian : Prop :=
  (∀ (S : StateBytes) (i : Nat) (h : i < 200),
    (lane S ⟨i / 8 % 5, by omega⟩ ⟨i / 8 / 5, by omega⟩).extractLsb' (8 * (i % 8)) 8 = byteAt S i) ∧
  (∀ S : StateBytes, ofLanes (lane S) = S) ∧
  (∀ (S : StateBytes) (x y : Fin 5) (z : Nat), z < 64 →
    (packState S).getLsbD (64 * (5 * y.val + x.val) + z) = (lane S x y).getLsbD z)

/-! ### The block at its ports -/

/-- 70_reset_and_hazards.md R235 to R237: out of reset, a ready block accepts exactly when `cmd_valid` is 1, a busy one
never; a withdrawn command has no effect; a presented response is held, all of it, until `rsp_ready`, and then handed
over once. -/
def Obligations.PortHandshake : Prop :=
  ∀ (e : Edge) (s : State), e.rstN = true →
    (accepts e s = true ↔ e.cmdValid = true ∧ s.busy = false) ∧
    (s.stage = .ready → e.cmdValid = false → tick e s = .next s) ∧
    (s.rspValid = true → e.rspReady = false → tick e s = .next s) ∧
    (s.rspValid = true → e.rspReady = true →
      tick e s = .next { s with stage := .ready, rspLog := ⟨s.rspStatus, s.rspData, s.perms⟩ :: s.rspLog })

/-- 60_exceptions.md R211: `perm_req` is up for one cycle, raised only by a command that starts, with no request
outstanding before, and each pulse is one permutation event. -/
def Obligations.PermutationRequestIsOnePulsePerEvent : Prop :=
  ∀ (e : Edge) (s t : State), s.inv = true → tick e s = .next t →
    (t.permReq = true → s.permReq = false ∧ (∃ k, t.stage = .permuting k) ∧
      (s.stage = .ready ∨ ∃ w, s.stage = .executing w) ∧ t.permCount = s.permCount + 1) ∧
    (t.permReq = false → t.permCount = s.permCount)

/-- The block at its ports does what a step does: at every edge out of reset, for every pace of the block and every
latency of an engine that answers with the permutation, completing the command in flight after the edge is completing
it before the edge, but at an accepting edge, where it is the whole command at once (00_scope.md R14, 20_memory.md R58,
60_exceptions.md R211, R212). -/
def Obligations.ClockEdgesRefineTheCommands : Prop :=
  ∀ (e : Edge) (s t : State), s.inv = true → e.rstN = true → engineHonest Config.permute e s →
    tick e s = .next t →
    completeInFlight t = if accepts e s = true then execWord e.cmdWord s else completeInFlight s

/-- 60_exceptions.md R212, 70_reset_and_hazards.md R240: with an engine of any latency ≥ 1, a command accepted by a block
that gets on at every edge has taken its whole effect, and its response has been handed over, PERM_LATENCY + 2 edges
later; the engine has taken one request for each permutation event. The edges are counted by the model's engine
(log 11). -/
def Obligations.CommandCompletesWithTheEngine : Prop :=
  ∀ (lat : Nat → Nat) (w : Word) (s : State) (g : Engine), (∀ k, 1 ≤ lat k) →
    s.inv = true → s.stage = .ready → g.job = none →
    ∃ t g', execWord w s = .next t ∧ g'.job = none ∧ g'.taken = g.taken + t.perms ∧
      System.run Config.permute lat
        (⟨true, true, w, false, true⟩ ::
          (List.replicate (lat g.taken + 1) ⟨true, false, 0#32, false, true⟩ ++
            [⟨true, false, 0#32, true, true⟩])) ⟨s, g⟩ = .next ⟨t, g'⟩

/-- 70_reset_and_hazards.md R240: a command that permutes takes at least PERM_LATENCY more cycles than its acceptance:
whatever the host's pins and the block's pace, no response is presented within that many further edges. The edges are
counted by the model's engine (log 11). -/
def Obligations.PermutingCommandWaitsForTheEngine : Prop :=
  ∀ (lat : Nat → Nat) (a : Bool) (w : Word) (rr : Bool) (hs : List HostPins) (s t : State) (g : Engine),
    (∀ k, 1 ≤ lat k) → s.inv = true → s.stage = .ready → g.job = none →
    execWord w s = .next t → t.perms = 1 →
    (∀ h ∈ hs, h.rstN = true) → hs.length ≤ lat g.taken →
    ∃ y, System.run Config.permute lat (⟨true, true, w, rr, a⟩ :: hs) ⟨s, g⟩ = .next y ∧
      y.block.rspValid = false ∧ y.block.busy = true

/-! ### Several instances -/

/-- 60_exceptions.md R213, 20_memory.md R67: instances do not interact. Whatever state any instance is in, and in
whatever order steps of the others come between its own, the instance whose host presents the words of COMPUTE at
strength 128 or 256 takes them all and gives the bytes of `shake` of its own message, its permutation count and sticky
bits its own; so two instances given the same words give the same bytes. Beside it, what holds of the list form alone
(log 20): a step of one instance changes no other, and steps of two commute. -/
def Obligations.InstancesShareNothing : Prop :=
  (∀ (k strength : Nat) (m : List Byte) (n : Nat) (ks : List Nat) (ys : List State) (s : State) (rest : List Word),
    strength = 128 ∨ strength = 256 → ys[k]? = some s → s.stage = .ready →
    s.cmdIn = computeWords strength m n ++ rest → ks.count k = (computeWords strength m n).length →
    ∃ t, (runInstances ks ys)[k]? = some t ∧ t.cmdIn = rest ∧ t.stage = .ready ∧ t.phase = .squeezing ∧
      lastBytes n t = shake Config.permute strength m n ∧
      t.permCount = s.permCount + m.length / (rateBits strength / 8) + 1 + n / (rateBits strength / 8) ∧
      t.errUnsup = false ∧ t.errProto = false ∧ t.errIllegal = false) ∧
  ∀ (i j : Nat) (ys : List State), i ≠ j →
    (stepInstance i ys)[j]? = ys[j]? ∧
    stepInstance i (stepInstance j ys) = stepInstance j (stepInstance i ys)
end

