-- ==== Sys2Proof/Laws/Decode.lean ====
section
/-! SUPPORT. The fields of a word built from its fields, and a word rebuilt from them: what the proofs about decoding
and encoding cite. -/

namespace Sys2Proof

/-- Bit `i` of a word built from its fields. -/
theorem getLsbD_packWord (op : BitVec 4) (arg : BitVec 16) (i : Nat) :
    (packWord op arg).getLsbD i =
      if i < 16 then arg.getLsbD i else if i - 16 < 12 then false else op.getLsbD (i - 16 - 12) := by
  refine Eq.trans (BitVec.getLsbD_append (x := op ++ 0#12) (y := arg) (i := i)) ?_
  rw [BitVec.getLsbD_append]
  simp

@[simp] theorem opField_packWord (op : BitVec 4) (arg : BitVec 16) : opField (packWord op arg) = op := by
  apply BitVec.eq_of_getLsbD_eq
  intro i hi
  have h1 : ¬ 28 + i < 16 := by omega
  have h2 : ¬ 28 + i - 16 < 12 := by omega
  have h3 : 28 + i - 16 - 12 = i := by omega
  simp only [opField, BitVec.getLsbD_extractLsb', hi, getLsbD_packWord, h1, h2, h3, decide_true, if_false,
    Bool.true_and]

@[simp] theorem mbzField_packWord (op : BitVec 4) (arg : BitVec 16) : mbzField (packWord op arg) = 0#12 := by
  apply BitVec.eq_of_getLsbD_eq
  intro i hi
  have h1 : ¬ 16 + i < 16 := by omega
  have h2 : 16 + i - 16 < 12 := by omega
  simp [mbzField, getLsbD_packWord]
  omega

@[simp] theorem argField_packWord (op : BitVec 4) (arg : BitVec 16) : argField (packWord op arg) = arg := by
  apply BitVec.eq_of_getLsbD_eq
  intro i hi
  simp [argField, getLsbD_packWord, hi]

/-- Bits of a word that lie in its ARG field are those bits of the field. -/
theorem extract_argField (w : Word) (k n : Nat) (h : k + n ≤ 16) :
    (argField w).extractLsb' k n = w.extractLsb' k n := by
  apply BitVec.eq_of_getLsbD_eq
  intro i hi
  have h1 : k + i < 16 := by omega
  simp only [argField, BitVec.getLsbD_extractLsb', hi, h1, decide_true, Bool.true_and, Nat.zero_add]

/-- A word with no MBZ bit set is the word of its two other fields. -/
theorem packWord_fields {w : Word} (h : mbzField w = 0#12) : packWord (opField w) (argField w) = w := by
  apply BitVec.eq_of_getLsbD_eq
  intro i hi
  rw [getLsbD_packWord]
  split
  · rename_i h1
    simp [argField, h1]
  · split
    · rename_i h1 h2
      have hz := congrArg (fun v => v.getLsbD (i - 16)) h
      have h3 : 16 + (i - 16) = i := by omega
      simp only [mbzField, BitVec.getLsbD_extractLsb', h2, decide_true, Bool.true_and, h3] at hz
      simpa using hz.symm
    · rename_i h1 h2
      have h3 : 28 + (i - 16 - 12) = i := by omega
      have h4 : i - 16 - 12 < 4 := by omega
      simp only [opField, BitVec.getLsbD_extractLsb', h4, decide_true, Bool.true_and, h3]

end Sys2Proof
end

