-- ==== Sys2Proof/Laws/State.lean ====
section
/-! SUPPORT. One lemma per field for every named update of the state, so that no later proof unfolds an update. -/

namespace Sys2Proof.Machine

section Updates
variable (s : State)

@[simp] theorem beginCommand_phase : (beginCommand s).phase = s.phase := rfl
@[simp] theorem beginCommand_str : (beginCommand s).str = s.str := rfl
@[simp] theorem beginCommand_pos : (beginCommand s).pos = s.pos := rfl
@[simp] theorem beginCommand_S : (beginCommand s).S = s.S := rfl
@[simp] theorem beginCommand_errUnsup : (beginCommand s).errUnsup = s.errUnsup := rfl
@[simp] theorem beginCommand_errProto : (beginCommand s).errProto = s.errProto := rfl
@[simp] theorem beginCommand_errIllegal : (beginCommand s).errIllegal = s.errIllegal := rfl
@[simp] theorem beginCommand_stage : (beginCommand s).stage = s.stage := rfl
@[simp] theorem beginCommand_permReq : (beginCommand s).permReq = s.permReq := rfl
@[simp] theorem beginCommand_rspStatus : (beginCommand s).rspStatus = s.rspStatus := rfl
@[simp] theorem beginCommand_rspData : (beginCommand s).rspData = s.rspData := rfl
@[simp] theorem beginCommand_perms : (beginCommand s).perms = 0 := rfl
@[simp] theorem beginCommand_permCount : (beginCommand s).permCount = s.permCount := rfl
@[simp] theorem beginCommand_cmdIn : (beginCommand s).cmdIn = s.cmdIn := rfl
@[simp] theorem beginCommand_rspLog : (beginCommand s).rspLog = s.rspLog := rfl
@[simp] theorem beginCommand_resets : (beginCommand s).resets = s.resets := rfl

@[simp] theorem setBytes_phase (S' : StateBytes) : (setBytes S' s).phase = s.phase := rfl
@[simp] theorem setBytes_str (S' : StateBytes) : (setBytes S' s).str = s.str := rfl
@[simp] theorem setBytes_pos (S' : StateBytes) : (setBytes S' s).pos = s.pos := rfl
@[simp] theorem setBytes_S (S' : StateBytes) : (setBytes S' s).S = S' := rfl
@[simp] theorem setBytes_errUnsup (S' : StateBytes) : (setBytes S' s).errUnsup = s.errUnsup := rfl
@[simp] theorem setBytes_errProto (S' : StateBytes) : (setBytes S' s).errProto = s.errProto := rfl
@[simp] theorem setBytes_errIllegal (S' : StateBytes) : (setBytes S' s).errIllegal = s.errIllegal := rfl
@[simp] theorem setBytes_stage (S' : StateBytes) : (setBytes S' s).stage = s.stage := rfl
@[simp] theorem setBytes_permReq (S' : StateBytes) : (setBytes S' s).permReq = s.permReq := rfl
@[simp] theorem setBytes_rspStatus (S' : StateBytes) : (setBytes S' s).rspStatus = s.rspStatus := rfl
@[simp] theorem setBytes_rspData (S' : StateBytes) : (setBytes S' s).rspData = s.rspData := rfl
@[simp] theorem setBytes_perms (S' : StateBytes) : (setBytes S' s).perms = s.perms := rfl
@[simp] theorem setBytes_permCount (S' : StateBytes) : (setBytes S' s).permCount = s.permCount := rfl
@[simp] theorem setBytes_cmdIn (S' : StateBytes) : (setBytes S' s).cmdIn = s.cmdIn := rfl
@[simp] theorem setBytes_rspLog (S' : StateBytes) : (setBytes S' s).rspLog = s.rspLog := rfl
@[simp] theorem setBytes_resets (S' : StateBytes) : (setBytes S' s).resets = s.resets := rfl

@[simp] theorem countPermutation_phase : (countPermutation s).phase = s.phase := rfl
@[simp] theorem countPermutation_str : (countPermutation s).str = s.str := rfl
@[simp] theorem countPermutation_pos : (countPermutation s).pos = s.pos := rfl
@[simp] theorem countPermutation_S : (countPermutation s).S = s.S := rfl
@[simp] theorem countPermutation_errUnsup : (countPermutation s).errUnsup = s.errUnsup := rfl
@[simp] theorem countPermutation_errProto : (countPermutation s).errProto = s.errProto := rfl
@[simp] theorem countPermutation_errIllegal : (countPermutation s).errIllegal = s.errIllegal := rfl
@[simp] theorem countPermutation_stage : (countPermutation s).stage = s.stage := rfl
@[simp] theorem countPermutation_permReq : (countPermutation s).permReq = s.permReq := rfl
@[simp] theorem countPermutation_rspStatus : (countPermutation s).rspStatus = s.rspStatus := rfl
@[simp] theorem countPermutation_rspData : (countPermutation s).rspData = s.rspData := rfl
@[simp] theorem countPermutation_perms : (countPermutation s).perms = s.perms + 1 := rfl
@[simp] theorem countPermutation_permCount : (countPermutation s).permCount = s.permCount + 1 := rfl
@[simp] theorem countPermutation_cmdIn : (countPermutation s).cmdIn = s.cmdIn := rfl
@[simp] theorem countPermutation_rspLog : (countPermutation s).rspLog = s.rspLog := rfl
@[simp] theorem countPermutation_resets : (countPermutation s).resets = s.resets := rfl

@[simp] theorem permute_phase (P : Permute) : (permute P s).phase = s.phase := rfl
@[simp] theorem permute_str (P : Permute) : (permute P s).str = s.str := rfl
@[simp] theorem permute_pos (P : Permute) : (permute P s).pos = s.pos := rfl
@[simp] theorem permute_S (P : Permute) : (permute P s).S = P s.S := rfl
@[simp] theorem permute_errUnsup (P : Permute) : (permute P s).errUnsup = s.errUnsup := rfl
@[simp] theorem permute_errProto (P : Permute) : (permute P s).errProto = s.errProto := rfl
@[simp] theorem permute_errIllegal (P : Permute) : (permute P s).errIllegal = s.errIllegal := rfl
@[simp] theorem permute_stage (P : Permute) : (permute P s).stage = s.stage := rfl
@[simp] theorem permute_permReq (P : Permute) : (permute P s).permReq = s.permReq := rfl
@[simp] theorem permute_rspStatus (P : Permute) : (permute P s).rspStatus = s.rspStatus := rfl
@[simp] theorem permute_rspData (P : Permute) : (permute P s).rspData = s.rspData := rfl
@[simp] theorem permute_perms (P : Permute) : (permute P s).perms = s.perms + 1 := rfl
@[simp] theorem permute_permCount (P : Permute) : (permute P s).permCount = s.permCount + 1 := rfl
@[simp] theorem permute_cmdIn (P : Permute) : (permute P s).cmdIn = s.cmdIn := rfl
@[simp] theorem permute_rspLog (P : Permute) : (permute P s).rspLog = s.rspLog := rfl
@[simp] theorem permute_resets (P : Permute) : (permute P s).resets = s.resets := rfl

@[simp] theorem setPos_phase (v : BitVec 8) : (setPos v s).phase = s.phase := rfl
@[simp] theorem setPos_str (v : BitVec 8) : (setPos v s).str = s.str := rfl
@[simp] theorem setPos_pos (v : BitVec 8) : (setPos v s).pos = v := rfl
@[simp] theorem setPos_S (v : BitVec 8) : (setPos v s).S = s.S := rfl
@[simp] theorem setPos_errUnsup (v : BitVec 8) : (setPos v s).errUnsup = s.errUnsup := rfl
@[simp] theorem setPos_errProto (v : BitVec 8) : (setPos v s).errProto = s.errProto := rfl
@[simp] theorem setPos_errIllegal (v : BitVec 8) : (setPos v s).errIllegal = s.errIllegal := rfl
@[simp] theorem setPos_stage (v : BitVec 8) : (setPos v s).stage = s.stage := rfl
@[simp] theorem setPos_permReq (v : BitVec 8) : (setPos v s).permReq = s.permReq := rfl
@[simp] theorem setPos_rspStatus (v : BitVec 8) : (setPos v s).rspStatus = s.rspStatus := rfl
@[simp] theorem setPos_rspData (v : BitVec 8) : (setPos v s).rspData = s.rspData := rfl
@[simp] theorem setPos_perms (v : BitVec 8) : (setPos v s).perms = s.perms := rfl
@[simp] theorem setPos_permCount (v : BitVec 8) : (setPos v s).permCount = s.permCount := rfl
@[simp] theorem setPos_cmdIn (v : BitVec 8) : (setPos v s).cmdIn = s.cmdIn := rfl
@[simp] theorem setPos_rspLog (v : BitVec 8) : (setPos v s).rspLog = s.rspLog := rfl
@[simp] theorem setPos_resets (v : BitVec 8) : (setPos v s).resets = s.resets := rfl

@[simp] theorem present_phase (st : Status) (d : Word) : (present st d s).phase = s.phase := rfl
@[simp] theorem present_str (st : Status) (d : Word) : (present st d s).str = s.str := rfl
@[simp] theorem present_pos (st : Status) (d : Word) : (present st d s).pos = s.pos := rfl
@[simp] theorem present_S (st : Status) (d : Word) : (present st d s).S = s.S := rfl
@[simp] theorem present_errUnsup (st : Status) (d : Word) : (present st d s).errUnsup = s.errUnsup := rfl
@[simp] theorem present_errProto (st : Status) (d : Word) : (present st d s).errProto = s.errProto := rfl
@[simp] theorem present_errIllegal (st : Status) (d : Word) : (present st d s).errIllegal = s.errIllegal := rfl
@[simp] theorem present_stage (st : Status) (d : Word) : (present st d s).stage = .responding := rfl
@[simp] theorem present_permReq (st : Status) (d : Word) : (present st d s).permReq = s.permReq := rfl
@[simp] theorem present_rspStatus (st : Status) (d : Word) : (present st d s).rspStatus = st := rfl
@[simp] theorem present_rspData (st : Status) (d : Word) : (present st d s).rspData = d := rfl
@[simp] theorem present_perms (st : Status) (d : Word) : (present st d s).perms = s.perms := rfl
@[simp] theorem present_permCount (st : Status) (d : Word) : (present st d s).permCount = s.permCount := rfl
@[simp] theorem present_cmdIn (st : Status) (d : Word) : (present st d s).cmdIn = s.cmdIn := rfl
@[simp] theorem present_rspLog (st : Status) (d : Word) : (present st d s).rspLog = s.rspLog := rfl
@[simp] theorem present_resets (st : Status) (d : Word) : (present st d s).resets = s.resets := rfl

@[simp] theorem handOver_phase : (handOver s).phase = s.phase := rfl
@[simp] theorem handOver_str : (handOver s).str = s.str := rfl
@[simp] theorem handOver_pos : (handOver s).pos = s.pos := rfl
@[simp] theorem handOver_S : (handOver s).S = s.S := rfl
@[simp] theorem handOver_errUnsup : (handOver s).errUnsup = s.errUnsup := rfl
@[simp] theorem handOver_errProto : (handOver s).errProto = s.errProto := rfl
@[simp] theorem handOver_errIllegal : (handOver s).errIllegal = s.errIllegal := rfl
@[simp] theorem handOver_stage : (handOver s).stage = .ready := rfl
@[simp] theorem handOver_permReq : (handOver s).permReq = s.permReq := rfl
@[simp] theorem handOver_rspStatus : (handOver s).rspStatus = s.rspStatus := rfl
@[simp] theorem handOver_rspData : (handOver s).rspData = s.rspData := rfl
@[simp] theorem handOver_perms : (handOver s).perms = s.perms := rfl
@[simp] theorem handOver_permCount : (handOver s).permCount = s.permCount := rfl
@[simp] theorem handOver_cmdIn : (handOver s).cmdIn = s.cmdIn := rfl
@[simp] theorem handOver_rspLog : (handOver s).rspLog = ⟨s.rspStatus, s.rspData, s.perms⟩ :: s.rspLog := rfl
@[simp] theorem handOver_resets : (handOver s).resets = s.resets := rfl

@[simp] theorem respond_phase (st : Status) (d : Word) : (respond st d s).phase = s.phase := rfl
@[simp] theorem respond_str (st : Status) (d : Word) : (respond st d s).str = s.str := rfl
@[simp] theorem respond_pos (st : Status) (d : Word) : (respond st d s).pos = s.pos := rfl
@[simp] theorem respond_S (st : Status) (d : Word) : (respond st d s).S = s.S := rfl
@[simp] theorem respond_errUnsup (st : Status) (d : Word) : (respond st d s).errUnsup = s.errUnsup := rfl
@[simp] theorem respond_errProto (st : Status) (d : Word) : (respond st d s).errProto = s.errProto := rfl
@[simp] theorem respond_errIllegal (st : Status) (d : Word) : (respond st d s).errIllegal = s.errIllegal := rfl
@[simp] theorem respond_stage (st : Status) (d : Word) : (respond st d s).stage = .ready := rfl
@[simp] theorem respond_permReq (st : Status) (d : Word) : (respond st d s).permReq = s.permReq := rfl
@[simp] theorem respond_rspStatus (st : Status) (d : Word) : (respond st d s).rspStatus = st := rfl
@[simp] theorem respond_rspData (st : Status) (d : Word) : (respond st d s).rspData = d := rfl
@[simp] theorem respond_perms (st : Status) (d : Word) : (respond st d s).perms = s.perms := rfl
@[simp] theorem respond_permCount (st : Status) (d : Word) : (respond st d s).permCount = s.permCount := rfl
@[simp] theorem respond_cmdIn (st : Status) (d : Word) : (respond st d s).cmdIn = s.cmdIn := rfl
@[simp] theorem respond_rspLog (st : Status) (d : Word) : (respond st d s).rspLog = ⟨st, d, s.perms⟩ :: s.rspLog := rfl
@[simp] theorem respond_resets (st : Status) (d : Word) : (respond st d s).resets = s.resets := rfl

@[simp] theorem clearSticky_phase : (clearSticky s).phase = s.phase := rfl
@[simp] theorem clearSticky_str : (clearSticky s).str = s.str := rfl
@[simp] theorem clearSticky_pos : (clearSticky s).pos = s.pos := rfl
@[simp] theorem clearSticky_S : (clearSticky s).S = s.S := rfl
@[simp] theorem clearSticky_errUnsup : (clearSticky s).errUnsup = false := rfl
@[simp] theorem clearSticky_errProto : (clearSticky s).errProto = false := rfl
@[simp] theorem clearSticky_errIllegal : (clearSticky s).errIllegal = false := rfl
@[simp] theorem clearSticky_stage : (clearSticky s).stage = s.stage := rfl
@[simp] theorem clearSticky_permReq : (clearSticky s).permReq = s.permReq := rfl
@[simp] theorem clearSticky_rspStatus : (clearSticky s).rspStatus = s.rspStatus := rfl
@[simp] theorem clearSticky_rspData : (clearSticky s).rspData = s.rspData := rfl
@[simp] theorem clearSticky_perms : (clearSticky s).perms = s.perms := rfl
@[simp] theorem clearSticky_permCount : (clearSticky s).permCount = s.permCount := rfl
@[simp] theorem clearSticky_cmdIn : (clearSticky s).cmdIn = s.cmdIn := rfl
@[simp] theorem clearSticky_rspLog : (clearSticky s).rspLog = s.rspLog := rfl
@[simp] theorem clearSticky_resets : (clearSticky s).resets = s.resets := rfl

@[simp] theorem newSession_phase (b : BitVec 1) : (newSession b s).phase = .absorbing := rfl
@[simp] theorem newSession_str (b : BitVec 1) : (newSession b s).str = b := rfl
@[simp] theorem newSession_pos (b : BitVec 1) : (newSession b s).pos = 0#8 := rfl
@[simp] theorem newSession_S (b : BitVec 1) : (newSession b s).S = zeroBytes := rfl
@[simp] theorem newSession_errUnsup (b : BitVec 1) : (newSession b s).errUnsup = false := rfl
@[simp] theorem newSession_errProto (b : BitVec 1) : (newSession b s).errProto = false := rfl
@[simp] theorem newSession_errIllegal (b : BitVec 1) : (newSession b s).errIllegal = false := rfl
@[simp] theorem newSession_stage (b : BitVec 1) : (newSession b s).stage = s.stage := rfl
@[simp] theorem newSession_permReq (b : BitVec 1) : (newSession b s).permReq = s.permReq := rfl
@[simp] theorem newSession_rspStatus (b : BitVec 1) : (newSession b s).rspStatus = s.rspStatus := rfl
@[simp] theorem newSession_rspData (b : BitVec 1) : (newSession b s).rspData = s.rspData := rfl
@[simp] theorem newSession_perms (b : BitVec 1) : (newSession b s).perms = s.perms := rfl
@[simp] theorem newSession_permCount (b : BitVec 1) : (newSession b s).permCount = s.permCount := rfl
@[simp] theorem newSession_cmdIn (b : BitVec 1) : (newSession b s).cmdIn = s.cmdIn := rfl
@[simp] theorem newSession_rspLog (b : BitVec 1) : (newSession b s).rspLog = s.rspLog := rfl
@[simp] theorem newSession_resets (b : BitVec 1) : (newSession b s).resets = s.resets := rfl

@[simp] theorem enterSqueezing_phase : (enterSqueezing s).phase = .squeezing := rfl
@[simp] theorem enterSqueezing_str : (enterSqueezing s).str = s.str := rfl
@[simp] theorem enterSqueezing_pos : (enterSqueezing s).pos = 0#8 := rfl
@[simp] theorem enterSqueezing_S : (enterSqueezing s).S = s.S := rfl
@[simp] theorem enterSqueezing_errUnsup : (enterSqueezing s).errUnsup = s.errUnsup := rfl
@[simp] theorem enterSqueezing_errProto : (enterSqueezing s).errProto = s.errProto := rfl
@[simp] theorem enterSqueezing_errIllegal : (enterSqueezing s).errIllegal = s.errIllegal := rfl
@[simp] theorem enterSqueezing_stage : (enterSqueezing s).stage = s.stage := rfl
@[simp] theorem enterSqueezing_permReq : (enterSqueezing s).permReq = s.permReq := rfl
@[simp] theorem enterSqueezing_rspStatus : (enterSqueezing s).rspStatus = s.rspStatus := rfl
@[simp] theorem enterSqueezing_rspData : (enterSqueezing s).rspData = s.rspData := rfl
@[simp] theorem enterSqueezing_perms : (enterSqueezing s).perms = s.perms := rfl
@[simp] theorem enterSqueezing_permCount : (enterSqueezing s).permCount = s.permCount := rfl
@[simp] theorem enterSqueezing_cmdIn : (enterSqueezing s).cmdIn = s.cmdIn := rfl
@[simp] theorem enterSqueezing_rspLog : (enterSqueezing s).rspLog = s.rspLog := rfl
@[simp] theorem enterSqueezing_resets : (enterSqueezing s).resets = s.resets := rfl

@[simp] theorem loadPermuted_phase (S' : StateBytes) : (loadPermuted S' s).phase = s.phase := rfl
@[simp] theorem loadPermuted_str (S' : StateBytes) : (loadPermuted S' s).str = s.str := rfl
@[simp] theorem loadPermuted_pos (S' : StateBytes) : (loadPermuted S' s).pos = s.pos := rfl
@[simp] theorem loadPermuted_S (S' : StateBytes) : (loadPermuted S' s).S = S' := rfl
@[simp] theorem loadPermuted_errUnsup (S' : StateBytes) : (loadPermuted S' s).errUnsup = s.errUnsup := rfl
@[simp] theorem loadPermuted_errProto (S' : StateBytes) : (loadPermuted S' s).errProto = s.errProto := rfl
@[simp] theorem loadPermuted_errIllegal (S' : StateBytes) : (loadPermuted S' s).errIllegal = s.errIllegal := rfl
@[simp] theorem loadPermuted_stage (S' : StateBytes) : (loadPermuted S' s).stage = s.stage := rfl
@[simp] theorem loadPermuted_permReq (S' : StateBytes) : (loadPermuted S' s).permReq = false := rfl
@[simp] theorem loadPermuted_rspStatus (S' : StateBytes) : (loadPermuted S' s).rspStatus = s.rspStatus := rfl
@[simp] theorem loadPermuted_rspData (S' : StateBytes) : (loadPermuted S' s).rspData = s.rspData := rfl
@[simp] theorem loadPermuted_perms (S' : StateBytes) : (loadPermuted S' s).perms = s.perms := rfl
@[simp] theorem loadPermuted_permCount (S' : StateBytes) : (loadPermuted S' s).permCount = s.permCount := rfl
@[simp] theorem loadPermuted_cmdIn (S' : StateBytes) : (loadPermuted S' s).cmdIn = s.cmdIn := rfl
@[simp] theorem loadPermuted_rspLog (S' : StateBytes) : (loadPermuted S' s).rspLog = s.rspLog := rfl
@[simp] theorem loadPermuted_resets (S' : StateBytes) : (loadPermuted S' s).resets = s.resets := rfl

@[simp] theorem requestPermutation_phase (k : Resume) : (requestPermutation k s).phase = s.phase := rfl
@[simp] theorem requestPermutation_str (k : Resume) : (requestPermutation k s).str = s.str := rfl
@[simp] theorem requestPermutation_pos (k : Resume) : (requestPermutation k s).pos = s.pos := rfl
@[simp] theorem requestPermutation_S (k : Resume) : (requestPermutation k s).S = s.S := rfl
@[simp] theorem requestPermutation_errUnsup (k : Resume) : (requestPermutation k s).errUnsup = s.errUnsup := rfl
@[simp] theorem requestPermutation_errProto (k : Resume) : (requestPermutation k s).errProto = s.errProto := rfl
@[simp] theorem requestPermutation_errIllegal (k : Resume) : (requestPermutation k s).errIllegal = s.errIllegal := rfl
@[simp] theorem requestPermutation_stage (k : Resume) : (requestPermutation k s).stage = .permuting k := rfl
@[simp] theorem requestPermutation_permReq (k : Resume) : (requestPermutation k s).permReq = true := rfl
@[simp] theorem requestPermutation_rspStatus (k : Resume) : (requestPermutation k s).rspStatus = s.rspStatus := rfl
@[simp] theorem requestPermutation_rspData (k : Resume) : (requestPermutation k s).rspData = s.rspData := rfl
@[simp] theorem requestPermutation_perms (k : Resume) : (requestPermutation k s).perms = s.perms + 1 := rfl
@[simp] theorem requestPermutation_permCount (k : Resume) : (requestPermutation k s).permCount = s.permCount + 1 := rfl
@[simp] theorem requestPermutation_cmdIn (k : Resume) : (requestPermutation k s).cmdIn = s.cmdIn := rfl
@[simp] theorem requestPermutation_rspLog (k : Resume) : (requestPermutation k s).rspLog = s.rspLog := rfl
@[simp] theorem requestPermutation_resets (k : Resume) : (requestPermutation k s).resets = s.resets := rfl

@[simp] theorem presentWord_phase (w : Word) : (presentWord w s).phase = s.phase := rfl
@[simp] theorem presentWord_str (w : Word) : (presentWord w s).str = s.str := rfl
@[simp] theorem presentWord_pos (w : Word) : (presentWord w s).pos = s.pos := rfl
@[simp] theorem presentWord_S (w : Word) : (presentWord w s).S = s.S := rfl
@[simp] theorem presentWord_errUnsup (w : Word) : (presentWord w s).errUnsup = s.errUnsup := rfl
@[simp] theorem presentWord_errProto (w : Word) : (presentWord w s).errProto = s.errProto := rfl
@[simp] theorem presentWord_errIllegal (w : Word) : (presentWord w s).errIllegal = s.errIllegal := rfl
@[simp] theorem presentWord_stage (w : Word) : (presentWord w s).stage = .ready := rfl
@[simp] theorem presentWord_permReq (w : Word) : (presentWord w s).permReq = false := rfl
@[simp] theorem presentWord_rspStatus (w : Word) : (presentWord w s).rspStatus = s.rspStatus := rfl
@[simp] theorem presentWord_rspData (w : Word) : (presentWord w s).rspData = s.rspData := rfl
@[simp] theorem presentWord_perms (w : Word) : (presentWord w s).perms = s.perms := rfl
@[simp] theorem presentWord_permCount (w : Word) : (presentWord w s).permCount = s.permCount := rfl
@[simp] theorem presentWord_cmdIn (w : Word) : (presentWord w s).cmdIn = w :: s.cmdIn := rfl
@[simp] theorem presentWord_rspLog (w : Word) : (presentWord w s).rspLog = s.rspLog := rfl
@[simp] theorem presentWord_resets (w : Word) : (presentWord w s).resets = s.resets := rfl

@[simp] theorem setSticky_phase (e : Error) : (setSticky e s).phase = s.phase := by cases e <;> rfl
@[simp] theorem setSticky_str (e : Error) : (setSticky e s).str = s.str := by cases e <;> rfl
@[simp] theorem setSticky_pos (e : Error) : (setSticky e s).pos = s.pos := by cases e <;> rfl
@[simp] theorem setSticky_S (e : Error) : (setSticky e s).S = s.S := by cases e <;> rfl
@[simp] theorem setSticky_errUnsup (e : Error) : (setSticky e s).errUnsup = (s.errUnsup || decide (e = .unsupportedStrength)) := by
  cases e <;> simp [setSticky]
@[simp] theorem setSticky_errProto (e : Error) : (setSticky e s).errProto = (s.errProto || decide (e = .protocolViolation)) := by
  cases e <;> simp [setSticky]
@[simp] theorem setSticky_errIllegal (e : Error) : (setSticky e s).errIllegal = (s.errIllegal || decide (e = .illegalCommand)) := by
  cases e <;> simp [setSticky]
@[simp] theorem setSticky_stage (e : Error) : (setSticky e s).stage = s.stage := by cases e <;> rfl
@[simp] theorem setSticky_permReq (e : Error) : (setSticky e s).permReq = s.permReq := by cases e <;> rfl
@[simp] theorem setSticky_rspStatus (e : Error) : (setSticky e s).rspStatus = s.rspStatus := by cases e <;> rfl
@[simp] theorem setSticky_rspData (e : Error) : (setSticky e s).rspData = s.rspData := by cases e <;> rfl
@[simp] theorem setSticky_perms (e : Error) : (setSticky e s).perms = s.perms := by cases e <;> rfl
@[simp] theorem setSticky_permCount (e : Error) : (setSticky e s).permCount = s.permCount := by cases e <;> rfl
@[simp] theorem setSticky_cmdIn (e : Error) : (setSticky e s).cmdIn = s.cmdIn := by cases e <;> rfl
@[simp] theorem setSticky_rspLog (e : Error) : (setSticky e s).rspLog = s.rspLog := by cases e <;> rfl
@[simp] theorem setSticky_resets (e : Error) : (setSticky e s).resets = s.resets := by cases e <;> rfl

@[simp] theorem presentError_phase (e : Error) : (presentError e s).phase = s.phase := by cases e <;> rfl
@[simp] theorem presentError_str (e : Error) : (presentError e s).str = s.str := by cases e <;> rfl
@[simp] theorem presentError_pos (e : Error) : (presentError e s).pos = s.pos := by cases e <;> rfl
@[simp] theorem presentError_S (e : Error) : (presentError e s).S = s.S := by cases e <;> rfl
@[simp] theorem presentError_errUnsup (e : Error) : (presentError e s).errUnsup = (s.errUnsup || decide (e = .unsupportedStrength)) := by
  cases e <;> simp [presentError, setSticky, present]
@[simp] theorem presentError_errProto (e : Error) : (presentError e s).errProto = (s.errProto || decide (e = .protocolViolation)) := by
  cases e <;> simp [presentError, setSticky, present]
@[simp] theorem presentError_errIllegal (e : Error) : (presentError e s).errIllegal = (s.errIllegal || decide (e = .illegalCommand)) := by
  cases e <;> simp [presentError, setSticky, present]
@[simp] theorem presentError_stage (e : Error) : (presentError e s).stage = .responding := by cases e <;> rfl
@[simp] theorem presentError_permReq (e : Error) : (presentError e s).permReq = s.permReq := by cases e <;> rfl
@[simp] theorem presentError_rspStatus (e : Error) : (presentError e s).rspStatus = e.status := by cases e <;> rfl
@[simp] theorem presentError_rspData (e : Error) : (presentError e s).rspData = 0#32 := by cases e <;> rfl
@[simp] theorem presentError_perms (e : Error) : (presentError e s).perms = s.perms := by cases e <;> rfl
@[simp] theorem presentError_permCount (e : Error) : (presentError e s).permCount = s.permCount := by cases e <;> rfl
@[simp] theorem presentError_cmdIn (e : Error) : (presentError e s).cmdIn = s.cmdIn := by cases e <;> rfl
@[simp] theorem presentError_rspLog (e : Error) : (presentError e s).rspLog = s.rspLog := by cases e <;> rfl
@[simp] theorem presentError_resets (e : Error) : (presentError e s).resets = s.resets := by cases e <;> rfl

@[simp] theorem raise_phase (e : Error) : (raise e s).phase = s.phase := by cases e <;> rfl
@[simp] theorem raise_str (e : Error) : (raise e s).str = s.str := by cases e <;> rfl
@[simp] theorem raise_pos (e : Error) : (raise e s).pos = s.pos := by cases e <;> rfl
@[simp] theorem raise_S (e : Error) : (raise e s).S = s.S := by cases e <;> rfl
@[simp] theorem raise_errUnsup (e : Error) : (raise e s).errUnsup = (s.errUnsup || decide (e = .unsupportedStrength)) := by
  cases e <;> simp [raise, presentError, setSticky, present, handOver]
@[simp] theorem raise_errProto (e : Error) : (raise e s).errProto = (s.errProto || decide (e = .protocolViolation)) := by
  cases e <;> simp [raise, presentError, setSticky, present, handOver]
@[simp] theorem raise_errIllegal (e : Error) : (raise e s).errIllegal = (s.errIllegal || decide (e = .illegalCommand)) := by
  cases e <;> simp [raise, presentError, setSticky, present, handOver]
@[simp] theorem raise_stage (e : Error) : (raise e s).stage = .ready := by cases e <;> rfl
@[simp] theorem raise_permReq (e : Error) : (raise e s).permReq = s.permReq := by cases e <;> rfl
@[simp] theorem raise_rspStatus (e : Error) : (raise e s).rspStatus = e.status := by cases e <;> rfl
@[simp] theorem raise_rspData (e : Error) : (raise e s).rspData = 0#32 := by cases e <;> rfl
@[simp] theorem raise_perms (e : Error) : (raise e s).perms = s.perms := by cases e <;> rfl
@[simp] theorem raise_permCount (e : Error) : (raise e s).permCount = s.permCount := by cases e <;> rfl
@[simp] theorem raise_cmdIn (e : Error) : (raise e s).cmdIn = s.cmdIn := by cases e <;> rfl
@[simp] theorem raise_rspLog (e : Error) : (raise e s).rspLog = ⟨e.status, 0#32, s.perms⟩ :: s.rspLog := by cases e <;> rfl
@[simp] theorem raise_resets (e : Error) : (raise e s).resets = s.resets := by cases e <;> rfl

end Updates

end Sys2Proof.Machine
end

