-- ==== Sys2Proof/Laws/Ops.lean ====
section
/-! SUPPORT. What each shared operation can do, said once: the byte store, XorByte and CopyByte, the pad, the advance
of POS, the rejection; and the ties between the block's views of one command. -/

namespace Sys2Proof.Machine

/-! ### Sequencing -/

@[simp] theorem andThen_next (s : State) (f : State → Out) : andThen (.next s) f = f s := rfl
@[simp] theorem andThen_fault (r : Fault) (f : State → Out) : andThen (.fault r) f = .fault r := rfl
@[simp] theorem andThen_refused (r : Refusal) (f : State → Out) : andThen (.refused r) f = .refused r := rfl

/-- A sequence answers a next state exactly when both its parts do. -/
theorem andThen_eq_next {o : Out} {f : State → Out} {t : State} :
    andThen o f = .next t ↔ ∃ s, o = .next s ∧ f s = .next t := by
  cases o <;> simp

theorem andThen_assoc (o : Out) (f g : State → Out) :
    andThen (andThen o f) g = andThen o fun s => andThen (f s) g := by
  cases o <;> rfl

/-! ### The 200 bytes -/

theorem byteAt_of_lt (S : StateBytes) {i : Nat} (h : i < 200) : byteAt S i = S[i] := by simp [byteAt, h]

theorem byteAt_setByte_self (S : StateBytes) {i : Nat} (v : Byte) (h : i < 200) :
    byteAt (setByte S i v) i = v := by
  simp [byteAt, setByte, h]

theorem byteAt_setByte_ne (S : StateBytes) {i a : Nat} (v : Byte) (h : a ≠ i) :
    byteAt (setByte S i v) a = byteAt S a := by
  unfold byteAt setByte
  split
  · split
    · rw [Vector.getElem_set_ne]; omega
    · rfl
  · rfl

@[simp] theorem byteAt_zeroBytes (i : Nat) : byteAt zeroBytes i = 0#8 := by
  unfold byteAt zeroBytes
  split <;> simp

/-- Two states of the 200 bytes are one when every offset reads alike. -/
theorem bytes_ext {S T : StateBytes} (h : ∀ a, a < 200 → byteAt S a = byteAt T a) : S = T := by
  apply Vector.ext
  intro i hi
  simpa [byteAt, hi] using h i hi

theorem setByte_setByte (S : StateBytes) (i : Nat) (v v' : Byte) :
    setByte (setByte S i v) i v' = setByte S i v' := by
  unfold setByte
  split <;> simp

/-! ### RATE_BYTES -/

theorem rateBytes_idle {s : State} (h : s.phase = .idle) : s.rateBytes = 0#8 := by simp [State.rateBytes, h]

/-- RATE_BYTES of a session: 168 or 136 (10_state.md R25). -/
theorem rateBytes_cases {s : State} (h : s.phase ≠ .idle) :
    (s.str = 0#1 ∧ s.rateBytes = 168#8) ∨ (s.str ≠ 0#1 ∧ s.rateBytes = 136#8) := by
  by_cases hs : s.str = 0#1 <;> simp [State.rateBytes, h, hs]

theorem rateBytes_le (s : State) : s.rateBytes.toNat ≤ 168 := by
  unfold State.rateBytes
  split
  · decide
  · split <;> decide

/-- RATE_BYTES depends on PHASE and STR alone. -/
theorem rateBytes_congr {s t : State} (hp : t.phase = s.phase) (hs : t.str = s.str) :
    t.rateBytes = s.rateBytes := by
  simp [State.rateBytes, hp, hs]

section DerivedRegisters
variable (s : State)

@[simp] theorem beginCommand_rateBytes : (beginCommand s).rateBytes = s.rateBytes := rfl
@[simp] theorem setBytes_rateBytes (S' : StateBytes) : (setBytes S' s).rateBytes = s.rateBytes := rfl
@[simp] theorem setPos_rateBytes (v : BitVec 8) : (setPos v s).rateBytes = s.rateBytes := rfl
@[simp] theorem permute_rateBytes (P : Permute) : (permute P s).rateBytes = s.rateBytes := rfl
@[simp] theorem present_rateBytes (st : Status) (d : Word) : (present st d s).rateBytes = s.rateBytes := rfl
@[simp] theorem handOver_rateBytes : (handOver s).rateBytes = s.rateBytes := rfl
@[simp] theorem respond_rateBytes (st : Status) (d : Word) : (respond st d s).rateBytes = s.rateBytes := rfl
@[simp] theorem beginCommand_posOffset : (beginCommand s).posOffset = s.posOffset := rfl
@[simp] theorem setBytes_posOffset (S' : StateBytes) : (setBytes S' s).posOffset = s.posOffset := rfl
@[simp] theorem permute_posOffset (P : Permute) : (permute P s).posOffset = s.posOffset := rfl
@[simp] theorem present_posOffset (st : Status) (d : Word) : (present st d s).posOffset = s.posOffset := rfl
@[simp] theorem handOver_posOffset : (handOver s).posOffset = s.posOffset := rfl
@[simp] theorem respond_posOffset (st : Status) (d : Word) : (respond st d s).posOffset = s.posOffset := rfl
@[simp] theorem beginCommand_padEndOffset : (beginCommand s).padEndOffset = s.padEndOffset := rfl
@[simp] theorem setBytes_padEndOffset (S' : StateBytes) : (setBytes S' s).padEndOffset = s.padEndOffset := rfl
@[simp] theorem setPos_padEndOffset (v : BitVec 8) : (setPos v s).padEndOffset = s.padEndOffset := rfl
@[simp] theorem permute_padEndOffset (P : Permute) : (permute P s).padEndOffset = s.padEndOffset := rfl
@[simp] theorem present_padEndOffset (st : Status) (d : Word) : (present st d s).padEndOffset = s.padEndOffset := rfl
@[simp] theorem handOver_padEndOffset : (handOver s).padEndOffset = s.padEndOffset := rfl
@[simp] theorem respond_padEndOffset (st : Status) (d : Word) : (respond st d s).padEndOffset = s.padEndOffset := rfl

end DerivedRegisters

/-! ### The primitives -/

theorem xorByte_of_lt {i : Nat} {b : Byte} {s : State} (h : i < s.rateBytes.toNat) :
    xorByte i b s = .next (setBytes (setByte s.S i (byteAt s.S i ^^^ b)) s) := by
  simp [xorByte, h]

/-- XorByte that answers a next state was inside the rate region, and changed one byte. -/
theorem xorByte_eq_next {i : Nat} {b : Byte} {s t : State} :
    xorByte i b s = .next t ↔
      i < s.rateBytes.toNat ∧ t = setBytes (setByte s.S i (byteAt s.S i ^^^ b)) s := by
  unfold xorByte
  split
  · rename_i h
    simp [h, eq_comm]
  · rename_i h
    simp [h]

theorem copyByte_eq_some {i : Nat} {s : State} {v : Byte} :
    copyByte i s = some v ↔ i < s.rateBytes.toNat ∧ byteAt s.S i = v := by
  unfold copyByte
  split <;> simp_all

/-- The pad answers a next state when POS is inside the rate region, and changes the two pad bytes. -/
theorem padBlock_of_lt {s : State} (h : s.posOffset < s.rateBytes.toNat) :
    padBlock s = .next (setBytes
      (setByte (setByte s.S s.posOffset (byteAt s.S s.posOffset ^^^ 0x1F#8)) s.padEndOffset
        (byteAt (setByte s.S s.posOffset (byteAt s.S s.posOffset ^^^ 0x1F#8)) s.padEndOffset ^^^ 0x80#8)) s) := by
  unfold padBlock
  rw [xorByte_of_lt h, andThen_next, xorByte_of_lt]
  · rfl
  · rw [setBytes_rateBytes, setBytes_padEndOffset, State.padEndOffset]
    omega

/-- Inside the block, POS goes up by one and nothing else happens (41_absorb.md R121, 43_squeeze.md R161). -/
theorem advancePos_within (P : Permute) {s : State} (h : s.pos + 1#8 ≠ s.rateBytes) :
    advancePos P s = setPos (s.pos + 1#8) s := by
  unfold advancePos
  exact if_neg h

/-- At the block's last byte, the state is permuted and POS is 0 (41_absorb.md R121, 43_squeeze.md R161). -/
theorem advancePos_fills (P : Permute) {s : State} (h : s.pos + 1#8 = s.rateBytes) :
    advancePos P s = setPos 0#8 (permute P (setPos (s.pos + 1#8) s)) := by
  unfold advancePos
  exact if_pos h

section AdvancePos
variable (P : Permute) (s : State)

@[simp] theorem advancePos_phase : (advancePos P s).phase = s.phase := by unfold advancePos; dsimp only; split <;> rfl
@[simp] theorem advancePos_str : (advancePos P s).str = s.str := by unfold advancePos; dsimp only; split <;> rfl
@[simp] theorem advancePos_errUnsup : (advancePos P s).errUnsup = s.errUnsup := by unfold advancePos; dsimp only; split <;> rfl
@[simp] theorem advancePos_errProto : (advancePos P s).errProto = s.errProto := by unfold advancePos; dsimp only; split <;> rfl
@[simp] theorem advancePos_errIllegal : (advancePos P s).errIllegal = s.errIllegal := by unfold advancePos; dsimp only; split <;> rfl
@[simp] theorem advancePos_stage : (advancePos P s).stage = s.stage := by unfold advancePos; dsimp only; split <;> rfl
@[simp] theorem advancePos_permReq : (advancePos P s).permReq = s.permReq := by unfold advancePos; dsimp only; split <;> rfl
@[simp] theorem advancePos_rspStatus : (advancePos P s).rspStatus = s.rspStatus := by unfold advancePos; dsimp only; split <;> rfl
@[simp] theorem advancePos_rspData : (advancePos P s).rspData = s.rspData := by unfold advancePos; dsimp only; split <;> rfl
@[simp] theorem advancePos_cmdIn : (advancePos P s).cmdIn = s.cmdIn := by unfold advancePos; dsimp only; split <;> rfl
@[simp] theorem advancePos_rspLog : (advancePos P s).rspLog = s.rspLog := by unfold advancePos; dsimp only; split <;> rfl
@[simp] theorem advancePos_resets : (advancePos P s).resets = s.resets := by unfold advancePos; dsimp only; split <;> rfl

end AdvancePos

/-- POS + 1 does not wrap inside a block (00_scope.md R15). -/
theorem pos_add_one_toNat {s : State} (h : s.pos.toNat < s.rateBytes.toNat) :
    (s.pos + 1#8).toNat = s.pos.toNat + 1 := by
  have := rateBytes_le s
  rw [BitVec.toNat_add]
  simp
  omega

/-- The two ways POS advances from inside a block. -/
theorem advancePos_cases (P : Permute) {s : State} (h : s.pos.toNat < s.rateBytes.toNat) :
    (s.pos.toNat + 1 < s.rateBytes.toNat ∧ advancePos P s = setPos (s.pos + 1#8) s) ∨
      (s.pos.toNat + 1 = s.rateBytes.toNat ∧
        advancePos P s = setPos 0#8 (permute P (setPos (s.pos + 1#8) s))) := by
  by_cases e : s.pos + 1#8 = s.rateBytes
  · exact .inr ⟨by rw [← e, pos_add_one_toNat h], advancePos_fills P e⟩
  · refine .inl ⟨?_, advancePos_within P e⟩
    have : s.pos.toNat + 1 ≠ s.rateBytes.toNat := fun h1 =>
      e (BitVec.eq_of_toNat_eq (by rw [pos_add_one_toNat h, h1]))
    omega

/-! ### The views of one command -/

/-- A command of the machine is the command at the configured permutation. -/
theorem exec_eq_execWith (i : Instr) (s : State) : exec i s = execWith Config.permute i s := by
  cases i <;> rfl

theorem execWord_eq_execWordWith (w : Word) (s : State) : execWord w s = execWordWith Config.permute w s := by
  unfold execWord execWordWith
  cases decode w with
  | none => rfl
  | some i => exact exec_eq_execWith i s

end Sys2Proof.Machine
end

