-- ==== Sys2Proof/Laws/Exec.lean ====
section
/-! SUPPORT. Everything one command can do, said once: `Effect P s c t` lists the next states `t` of the decoded
command `c` (or of an illegal word, `none`), and `execWordWith_eq_next` says that these are all. Proofs about commands
go by cases on it instead of unfolding the meanings. -/

namespace Sys2Proof.Machine

/-- `S` with ABSORB's byte XORed in at POS. -/
def absorbedBytes (b : Byte) (s : State) : StateBytes := setByte s.S s.posOffset (byteAt s.S s.posOffset ^^^ b)

/-- `S` with FINALIZE's two pad bytes XORed in. -/
def paddedBytes (s : State) : StateBytes :=
  setByte (absorbedBytes 0x1F#8 s) s.padEndOffset (byteAt (absorbedBytes 0x1F#8 s) s.padEndOffset ^^^ 0x80#8)

/-- The next states of a command, one constructor for each way it can go. -/
inductive Effect (P : Permute) (s : State) : Option Instr → State → Prop where
  | nop : Effect P s (some .nop) (respond .ok 0#32 (beginCommand s))
  | rdstat : Effect P s (some .rdstat) (respond .ok s.statusWord (beginCommand s))
  | init {n : BitVec 16} {b : BitVec 1} (h : strengthBit n = some b) :
      Effect P s (some (.init n)) (respond .ok 0#32 (newSession b (beginCommand s)))
  | initRejected {n : BitVec 16} (h : strengthBit n = none) :
      Effect P s (some (.init n)) (raise .unsupportedStrength (beginCommand s))
  | absorb {b : Byte} (hp : s.phase = .absorbing) (h : s.pos.toNat < s.rateBytes.toNat) :
      Effect P s (some (.absorb b))
        (respond .ok 0#32 (advancePos P (setBytes (absorbedBytes b s) (beginCommand s))))
  | absorbRejected {b : Byte} (hp : s.phase ≠ .absorbing) :
      Effect P s (some (.absorb b)) (raise .protocolViolation (beginCommand s))
  | finalize (hp : s.phase = .absorbing) (h : s.pos.toNat < s.rateBytes.toNat) :
      Effect P s (some .finalize)
        (respond .ok 0#32 (enterSqueezing (permute P (setBytes (paddedBytes s) (beginCommand s)))))
  | finalizeRejected (hp : s.phase ≠ .absorbing) :
      Effect P s (some .finalize) (raise .protocolViolation (beginCommand s))
  | squeeze (hp : s.phase = .squeezing) (h : s.pos.toNat < s.rateBytes.toNat) :
      Effect P s (some .squeeze)
        (respond .ok (outputWord (byteAt s.S s.posOffset)) (advancePos P (beginCommand s)))
  | squeezeRejected (hp : s.phase ≠ .squeezing) :
      Effect P s (some .squeeze) (raise .protocolViolation (beginCommand s))
  | illegal : Effect P s none (raise .illegalCommand (beginCommand s))

/-- Every effect is an answer of the command. -/
theorem Effect.execWordWith {P : Permute} {s t : State} {w : Word} (h : Effect P s (decode w) t) :
    execWordWith P w s = .next t := by
  unfold Machine.execWordWith
  generalize decode w = c at h
  cases h with
  | nop => rfl
  | rdstat => rfl
  | init h => simp [execWith, initWith, h]
  | initRejected h => simp [execWith, initWith, h]
  | absorb hp h =>
    simp only [execWith, absorbWith, hp, if_true]
    rw [xorByte_of_lt (i := s.posOffset) (s := beginCommand s) h]
    rfl
  | absorbRejected hp => simp [execWith, absorbWith, hp]
  | finalize hp h =>
    simp only [execWith, finalizeWith, hp, if_true]
    rw [padBlock_of_lt (s := beginCommand s) h]
    rfl
  | finalizeRejected hp => simp [execWith, finalizeWith, hp]
  | squeeze hp h =>
    have hc : copyByte s.posOffset s = some (byteAt s.S s.posOffset) := copyByte_eq_some.2 ⟨h, rfl⟩
    simp [execWith, squeezeWith, hp, hc]
  | squeezeRejected hp => simp [execWith, squeezeWith, hp]
  | illegal => rfl

/-- A command has an effect wherever a session's POS is inside the block (10_state.md R30). -/
theorem exists_effect (P : Permute) {s : State} (hs : s.phase ≠ .idle → s.pos.toNat < s.rateBytes.toNat)
    (c : Option Instr) : ∃ t, Effect P s c t := by
  match c with
  | none => exact ⟨_, .illegal⟩
  | some .nop => exact ⟨_, .nop⟩
  | some .rdstat => exact ⟨_, .rdstat⟩
  | some (.init n) =>
    cases hn : strengthBit n with
    | none => exact ⟨_, .initRejected hn⟩
    | some b => exact ⟨_, .init hn⟩
  | some (.absorb b) =>
    by_cases hp : s.phase = .absorbing
    · exact ⟨_, .absorb hp (hs (by simp [hp]))⟩
    · exact ⟨_, .absorbRejected hp⟩
  | some .finalize =>
    by_cases hp : s.phase = .absorbing
    · exact ⟨_, .finalize hp (hs (by simp [hp]))⟩
    · exact ⟨_, .finalizeRejected hp⟩
  | some .squeeze =>
    by_cases hp : s.phase = .squeezing
    · exact ⟨_, .squeeze hp (hs (by simp [hp]))⟩
    · exact ⟨_, .squeezeRejected hp⟩

/-- A command's answers are its effects, and no others. -/
theorem execWordWith_eq_next {P : Permute} {s t : State} {w : Word} :
    execWordWith P w s = .next t ↔ Effect P s (decode w) t := by
  refine ⟨fun h => ?_, Effect.execWordWith⟩
  unfold Machine.execWordWith at h
  generalize decode w = c at h
  match c with
  | none => cases h; exact .illegal
  | some .nop => cases h; exact .nop
  | some .rdstat => cases h; exact .rdstat
  | some (.init n) =>
    simp only [execWith, initWith] at h
    cases hn : strengthBit n with
    | none => rw [hn] at h; cases h; exact .initRejected hn
    | some b => rw [hn] at h; cases h; exact .init hn
  | some (.absorb b) =>
    simp only [execWith, absorbWith] at h
    by_cases hp : s.phase = .absorbing
    · rw [if_pos hp, andThen_eq_next] at h
      obtain ⟨s1, h1, h2⟩ := h
      obtain ⟨hlt, rfl⟩ := xorByte_eq_next.1 h1
      cases h2
      exact .absorb hp hlt
    · rw [if_neg hp] at h; cases h; exact .absorbRejected hp
  | some .finalize =>
    simp only [execWith, finalizeWith] at h
    by_cases hp : s.phase = .absorbing
    · rw [if_pos hp, andThen_eq_next] at h
      obtain ⟨s1, h1, h2⟩ := h
      have hlt : s.pos.toNat < s.rateBytes.toNat := by
        unfold padBlock at h1
        obtain ⟨s2, h3, -⟩ := andThen_eq_next.1 h1
        exact (xorByte_eq_next.1 h3).1
      rw [padBlock_of_lt (s := beginCommand s) hlt] at h1
      cases h1
      cases h2
      exact .finalize hp hlt
    · rw [if_neg hp] at h; cases h; exact .finalizeRejected hp
  | some .squeeze =>
    simp only [execWith, squeezeWith] at h
    by_cases hp : s.phase = .squeezing
    · rw [if_pos hp] at h
      cases hc : copyByte s.posOffset s with
      | none => rw [hc] at h; cases h
      | some v =>
        rw [hc] at h
        obtain ⟨hlt, rfl⟩ := copyByte_eq_some.1 hc
        cases h
        exact .squeeze hp hlt
    · rw [if_neg hp] at h; cases h; exact .squeezeRejected hp

/-- The commands that reach a byte, in the phase where they do, from a POS outside the rate region: where a command
stops. No state that meets 10_state.md R30 is one (log 7). -/
def stopsAt (s : State) (c : Option Instr) : Prop :=
  ¬ s.pos.toNat < s.rateBytes.toNat ∧
    ((s.phase = .absorbing ∧ ((∃ b, c = some (.absorb b)) ∨ c = some .finalize)) ∨
      (s.phase = .squeezing ∧ c = some .squeeze))

/-- A command has an effect, or it stops for a POS outside the rate region: nothing else can happen. -/
theorem effect_or_stops (P : Permute) (w : Word) (s : State) :
    (∃ t, Effect P s (decode w) t) ∨
      (stopsAt s (decode w) ∧ execWordWith P w s = .fault (.offsetOutsideRate s.pos.toNat)) := by
  by_cases hlt : s.pos.toNat < s.rateBytes.toNat
  · exact .inl (exists_effect P (fun _ => hlt) _)
  · have hx (b : Byte) : xorByte s.posOffset b (beginCommand s) = .fault (.offsetOutsideRate s.pos.toNat) := by
      unfold xorByte
      exact if_neg hlt
    unfold Machine.execWordWith
    generalize decode w = c
    match c with
    | none => exact .inl ⟨_, .illegal⟩
    | some .nop => exact .inl ⟨_, .nop⟩
    | some .rdstat => exact .inl ⟨_, .rdstat⟩
    | some (.init n) =>
      cases hn : strengthBit n with
      | none => exact .inl ⟨_, .initRejected hn⟩
      | some b => exact .inl ⟨_, .init hn⟩
    | some (.absorb b) =>
      by_cases hp : s.phase = .absorbing
      · refine .inr ⟨⟨hlt, .inl ⟨hp, .inl ⟨b, rfl⟩⟩⟩, ?_⟩
        simp only [execWith, absorbWith, hp, if_true]
        rw [hx]
        rfl
      · exact .inl ⟨_, .absorbRejected hp⟩
    | some .finalize =>
      by_cases hp : s.phase = .absorbing
      · refine .inr ⟨⟨hlt, .inl ⟨hp, .inr rfl⟩⟩, ?_⟩
        simp only [execWith, finalizeWith, padBlock, hp, if_true, beginCommand_posOffset]
        rw [hx]
        rfl
      · exact .inl ⟨_, .finalizeRejected hp⟩
    | some .squeeze =>
      by_cases hp : s.phase = .squeezing
      · refine .inr ⟨⟨hlt, .inr ⟨hp, rfl⟩⟩, ?_⟩
        have hc : copyByte s.posOffset s = none := by
          unfold copyByte
          exact if_neg hlt
        simp only [execWith, squeezeWith, hp, if_true, hc]
        rfl
      · exact .inl ⟨_, .squeezeRejected hp⟩

end Sys2Proof.Machine
end

