-- ==== Sys2Proof/Laws/PerInstr.lean ====
section
/-! SUPPORT. Facts about every command as syntax, one lemma per constructor (LAWS.json, "per_instruction"). -/

namespace Sys2Proof.Laws.EncodedFields

/-- The word of a command has a defined opcode and no must-be-zero bit of `MBZ` set (30_encoding.md R72, R74). -/
def Statement (i : Instr) : Prop := mbzField (encode i) = 0#12 ∧ (opField (encode i)).toNat < 6

theorem nop : Statement .nop := by simp [Statement, encode]

theorem init (n : BitVec 16) : Statement (.init n) := by simp [Statement, encode]

theorem absorb (b : Byte) : Statement (.absorb b) := by simp [Statement, encode]

theorem finalize : Statement .finalize := by simp [Statement, encode]

theorem squeeze : Statement .squeeze := by simp [Statement, encode]

theorem rdstat : Statement .rdstat := by simp [Statement, encode]

end Sys2Proof.Laws.EncodedFields
end

