-- ==== Sys2Proof/Laws/Sponge.lean ====
section
/-! SUPPORT. What the block form of absorbing says byte by byte: the byte a message puts at an offset of a block, and
what one more byte of the message changes. -/

namespace Sys2Proof.Machine

theorem byteAt_xorBlock (S : StateBytes) (block : List Byte) {a : Nat} (h : a < 200) :
    byteAt (xorBlock S block) a = byteAt S a ^^^ block.getD a 0#8 := by
  simp [byteAt, xorBlock, h]

theorem getD_messageBlock (rate p : Nat) (m : List Byte) (q a : Nat) :
    (messageBlock rate p m q).getD a 0#8 = messageByteAt rate p m q a := by
  unfold messageBlock
  by_cases h : a < rate
  · simp [List.getD, h]
  · simp [List.getD, h, messageByteAt]

/-- One byte of the state after a block of the message is XORed in. -/
theorem byteAt_xorBlock_messageBlock (S : StateBytes) (rate p : Nat) (m : List Byte) (q : Nat) {a : Nat} (h : a < 200) :
    byteAt (xorBlock S (messageBlock rate p m q)) a = byteAt S a ^^^ messageByteAt rate p m q a := by
  rw [byteAt_xorBlock _ _ h, getD_messageBlock]

/-- Past its end a message puts nothing. -/
theorem messageByteAt_past {rate p : Nat} {m : List Byte} {q j : Nat} (h : p + m.length ≤ q * rate + j) :
    messageByteAt rate p m q j = 0#8 := by
  unfold messageByteAt
  split
  · rw [List.getD_eq_getElem?_getD, List.getElem?_eq_none (by omega)]
    rfl
  · rfl

/-- A block that begins past the message's end changes nothing. -/
theorem xorBlock_messageBlock_past (S : StateBytes) {rate p : Nat} {m : List Byte} {q : Nat}
    (h : p + m.length ≤ q * rate) : xorBlock S (messageBlock rate p m q) = S := by
  refine bytes_ext fun a ha => ?_
  rw [byteAt_xorBlock_messageBlock _ _ _ _ _ ha, messageByteAt_past (by omega), BitVec.xor_zero]

/-- One more byte goes to its own place and leaves every other as it was. -/
theorem messageByteAt_append (rate p : Nat) (m : List Byte) (b : Byte) (q j : Nat) :
    messageByteAt rate p (m ++ [b]) q j =
      if j < rate ∧ q * rate + j = p + m.length then b else messageByteAt rate p m q j := by
  by_cases hx : q * rate + j = p + m.length
  · by_cases hj : j < rate <;> simp [messageByteAt, hj, hx]
  · rw [if_neg (show ¬(j < rate ∧ q * rate + j = p + m.length) from fun h => hx h.2)]
    unfold messageByteAt
    split
    · by_cases hl : q * rate + j - p < m.length
      · simp [List.getD, List.getElem?_append, hl]
      · rw [List.getD_eq_getElem?_getD, List.getElem?_eq_none (by simp; omega), List.getD_eq_getElem?_getD,
          List.getElem?_eq_none (by omega)]
    · rfl

end Sys2Proof.Machine
end

