-- ==== Sys2Proof/Tests/Slice0.lean ====
section
/-! SUPPORT. The model's own tests: the ill-formed lines the assembler refuses, one word written out for every command,
one step at a time against the rows of 95_test_vectors.md Part 3, and, for every obligation with hypotheses, a state and
operands that meet them. Expected values come from those rows, named in each docstring, or are worked out from the rule
named. -/

namespace Sys2Proof.Tests

open Sys2Proof Sys2Proof.Machine

/-- A block with no command in flight, all bytes 00, in a phase, at a strength and at a position. -/
def blockAt (ph : Phase) (str : BitVec 1) (pos : BitVec 8) : State :=
  { State.reset with phase := ph, str := str, pos := pos, S := zeroBytes }

/-- The answer is a next state with the property. -/
def answers (o : Out) (p : State → Bool) : Bool :=
  match o with
  | .next t => p t
  | .fault _ => false
  | .refused _ => false

/-- The answer's response and STATUS are those of a row of 95_test_vectors.md: st, data, perms, STATUS after. -/
def row (o : Out) (st : Status) (data : Word) (perms : Nat) (status : Word) : Bool :=
  answers o fun t =>
    decide (t.rspStatus = st) && decide (t.rspData = data) && decide (t.perms = perms) && decide (t.statusWord = status)

/-- The state with the three sticky bits given. -/
def withSticky (u p i : Bool) (s : State) : State := { s with errUnsup := u, errProto := p, errIllegal := i }

/-- The state at one position holding one byte. -/
def withByte (a : Nat) (v : Byte) (s : State) : State := { s with S := setByte s.S a v }

/-- The state with a command in flight. -/
def withStage (g : Stage) (s : State) : State := { s with stage := g }

/-- A permutation that can be told from none: it moves every byte up by one offset. -/
def rotated (S : StateBytes) : StateBytes := Vector.ofFn fun j : Fin 200 => byteAt S ((j.val + 199) % 200)

/-! ### Well-formedness: what the assembler refuses -/

/-- 30_encoding.md R80: INIT's operand lies in −32768 to 65535. -/
theorem test_illFormed_init :
    (AsmLine.init 65536).inRange = false ∧ (AsmLine.init (-32769)).inRange = false ∧
    assembleLine (.init 65664) = none := by decide

/-- 30_encoding.md R80: ABSORB's operand lies in 0 to 255. -/
theorem test_illFormed_absorb :
    (AsmLine.absorb 256).inRange = false ∧ (AsmLine.absorb (-1)).inRange = false ∧
    assembleLine (.absorb 353) = none := by decide

/-- 30_encoding.md R80: a quoted operand is one ASCII character. -/
theorem test_illFormed_absorbChar : (AsmLine.absorbChar 'é').inRange = false ∧ assembleLine (.absorbChar 'é') = none := by
  decide

/-- 30_encoding.md R80: `.word` takes a 32-bit value. -/
theorem test_illFormed_word :
    (AsmLine.word 4294967296).inRange = false ∧ (AsmLine.word (-1)).inRange = false := by decide

/-- The bounds themselves are in range, and every command is well formed. -/
theorem test_wellFormed_bounds :
    (AsmLine.init 65535).inRange = true ∧ (AsmLine.init (-32768)).inRange = true ∧
    (AsmLine.absorb 255).inRange = true ∧ (AsmLine.absorb 0).inRange = true ∧
    (AsmLine.word 4294967295).inRange = true ∧ (Instr.init 512#16).wellFormed = true := by decide

/-- A text of 30_encoding.md R80 in its several spellings, with the words of R74. -/
theorem test_assemble :
    assemble "init 0x80 ; a session\n\nABSORB 'a'\n  .word 0x60000000\nSqueeze".toList =
      some [0x10000080#32, 0x20000061#32, 0x60000000#32, 0x40000000#32] ∧
    assemble "INIT -1".toList = some [0x1000FFFF#32] ∧ assemble "ABSORB 256".toList = none ∧
    assemble "ABSORB".toList = none := by decide

/-! ### Decoding: OP, MBZ and ARG written out (30_encoding.md R70 to R74) -/

theorem test_decode_nop : decode 0b0000_000000000000_0000000000000000#32 = some .nop := by decide
theorem test_decode_init : decode 0b0001_000000000000_0000000100000000#32 = some (.init 256#16) := by decide
theorem test_decode_absorb : decode 0b0010_000000000000_0000000011111111#32 = some (.absorb 0xFF#8) := by decide
theorem test_decode_finalize : decode 0b0011_000000000000_0000000000000000#32 = some .finalize := by decide
theorem test_decode_squeeze : decode 0b0100_000000000000_0000000000000000#32 = some .squeeze := by decide
theorem test_decode_rdstat : decode 0b0101_000000000000_0000000000000000#32 = some .rdstat := by decide

/-- 95_test_vectors.md X2, X3, X7, X9, X11, X13, X15, X16 to X18: the illegal words. -/
theorem test_decode_illegal :
    [0x00000001#32, 0x00010000#32, 0x10010080#32, 0x20000100#32, 0x30000001#32, 0x40008000#32, 0x50000100#32,
      0x60000000#32, 0x70000000#32, 0x80000000#32, 0xF0000000#32, 0xFFFFFFFF#32].all
      (fun w => decide (decode w = none)) = true := by decide

/-- The opcode table's words as the host numbers their bits. -/
theorem test_decodeTableWord :
    decodeTableWord 32 0x20000061 = some (.absorb 0x61#8) ∧ decodeTableWord 32 0x30000001 = none := by decide

/-- 30_encoding.md R74, "Exact words". -/
theorem test_encode :
    encode .nop = 0x00000000#32 ∧ encode (.init 128#16) = 0x10000080#32 ∧ encode (.absorb 0x61#8) = 0x20000061#32 ∧
    encode .finalize = 0x30000000#32 ∧ encode .squeeze = 0x40000000#32 ∧ encode .rdstat = 0x50000000#32 := by decide

/-! ### One command at a time -/

/-- 95_test_vectors.md I12. -/
theorem test_nop :
    row (exec .nop (withSticky false true false (blockAt .absorbing 0#1 3#8))) .ok 0#32 0 0x00A80321#32 = true := by
  decide

/-- 95_test_vectors.md I1, I2, I9, I10. -/
theorem test_init_creates :
    row (exec (.init 128#16) State.reset) .ok 0#32 0 0x00A80001#32 = true ∧
    row (exec (.init 256#16) State.reset) .ok 0#32 0 0x00880005#32 = true ∧
    row (exec (.init 256#16) (withSticky false true false (blockAt .absorbing 0#1 3#8))) .ok 0#32 0 0x00880005#32 = true ∧
    answers (exec (.init 128#16) (withByte 5 0xAA#8 (blockAt .squeezing 0#1 5#8)))
      (fun t => decide (byteAt t.S 5 = 0#8) && decide (t.statusWord = 0x00A80001#32)) = true := by decide

/-- 95_test_vectors.md I3 to I8, I14. -/
theorem test_init_rejects :
    row (exec (.init 0#16) State.reset) .unsupportedStrength 0#32 0 0x00000010#32 = true ∧
    row (exec (.init 0xFF80#16) State.reset) .unsupportedStrength 0#32 0 0x00000010#32 = true ∧
    row (exec (.init 129#16) State.reset) .unsupportedStrength 0#32 0 0x00000010#32 = true ∧
    row (exec (.init 0x8080#16) State.reset) .unsupportedStrength 0#32 0 0x00000010#32 = true ∧
    row (exec (.init 512#16) (blockAt .absorbing 1#1 0#8)) .unsupportedStrength 0#32 0 0x00880015#32 = true ∧
    row (exec (.init 64#16) (blockAt .squeezing 0#1 0#8)) .unsupportedStrength 0#32 0 0x00A80012#32 = true := by decide

/-- 95_test_vectors.md A1, A2 to A7: the status words at the edges of a block, at both strengths. -/
theorem test_absorb :
    row (exec (.absorb 0x61#8) (blockAt .absorbing 0#1 0#8)) .ok 0#32 0 0x00A80101#32 = true ∧
    row (exec (.absorb 0#8) (blockAt .absorbing 0#1 166#8)) .ok 0#32 0 0x00A8A701#32 = true ∧
    row (exec (.absorb 0xFF#8) (blockAt .absorbing 0#1 167#8)) .ok 0#32 1 0x00A80001#32 = true ∧
    row (exec (.absorb 0#8) (blockAt .absorbing 1#1 134#8)) .ok 0#32 0 0x00888705#32 = true ∧
    row (exec (.absorb 0#8) (blockAt .absorbing 1#1 135#8)) .ok 0#32 1 0x00880005#32 = true ∧
    row (exec (.absorb 0x61#8) (blockAt .idle 0#1 0#8)) .protocolViolation 0#32 0 0x00000020#32 = true ∧
    row (exec (.absorb 0x61#8) (blockAt .squeezing 0#1 0#8)) .protocolViolation 0#32 0 0x00A80022#32 = true := by decide

set_option maxRecDepth 4096 in
/-- 41_absorb.md R120: the byte is XORed, not stored, and only into S[POS]; the permutation comes after it. -/
theorem test_absorb_bytes :
    answers (exec (.absorb 0x0F#8) (withByte 3 0xFF#8 (blockAt .absorbing 0#1 3#8)))
      (fun t => decide (byteAt t.S 3 = 0xF0#8) && decide (byteAt t.S 4 = 0#8)) = true ∧
    answers (absorbWith rotated 0xFF#8 (blockAt .absorbing 0#1 167#8))
      (fun t => decide (byteAt t.S 168 = 0xFF#8) && decide (byteAt t.S 167 = 0#8)) = true := by decide

/-- 20_memory.md R54: from POS 167 at rate 168, byte 0 goes to offset 167 of the block there is, byte 1 to offset 0
of the next. -/
theorem test_messageByteAt :
    messageByteAt 168 167 [0x11#8, 0x22#8] 0 167 = 0x11#8 ∧ messageByteAt 168 167 [0x11#8, 0x22#8] 1 0 = 0x22#8 ∧
    messageByteAt 168 167 [0x11#8, 0x22#8] 0 0 = 0#8 ∧ messageByteAt 168 167 [0x11#8, 0x22#8] 1 1 = 0#8 := by decide

/-- 95_test_vectors.md F1, F2, F5, F7, F8. -/
theorem test_finalize :
    row (exec .finalize (blockAt .absorbing 0#1 0#8)) .ok 0#32 1 0x00A80002#32 = true ∧
    row (exec .finalize (blockAt .absorbing 1#1 0#8)) .ok 0#32 1 0x00880006#32 = true ∧
    row (exec .finalize (blockAt .absorbing 1#1 135#8)) .ok 0#32 1 0x00880006#32 = true ∧
    row (exec .finalize (blockAt .idle 0#1 0#8)) .protocolViolation 0#32 0 0x00000020#32 = true ∧
    row (exec .finalize (blockAt .squeezing 0#1 0#8)) .protocolViolation 0#32 0 0x00A80022#32 = true := by decide

set_option maxRecDepth 4096 in
/-- 95_test_vectors.md F3, F4: the bytes the permutation receives. -/
theorem test_finalize_bytes :
    answers (finalizeWith rotated (withByte 0 0x61#8 (blockAt .absorbing 1#1 3#8)))
      (fun t => decide (byteAt t.S 1 = 0x61#8) && decide (byteAt t.S 4 = 0x1F#8) && decide (byteAt t.S 136 = 0x80#8) &&
        decide (byteAt t.S 168 = 0#8)) = true ∧
    answers (finalizeWith rotated (blockAt .absorbing 0#1 167#8))
      (fun t => decide (byteAt t.S 168 = 0x9F#8) && decide (byteAt t.S 167 = 0#8)) = true := by decide

/-- 95_test_vectors.md Q1, Q3, Q5, Q7, Q8: the byte returned is the one before the command's own permutation. -/
theorem test_squeeze :
    row (exec .squeeze (withByte 0 0x7F#8 (blockAt .squeezing 0#1 0#8))) .ok 0x7F#32 0 0x00A80102#32 = true ∧
    row (exec .squeeze (withByte 167 0xA9#8 (blockAt .squeezing 0#1 167#8))) .ok 0xA9#32 1 0x00A80002#32 = true ∧
    row (exec .squeeze (withByte 135 0xDD#8 (blockAt .squeezing 1#1 135#8))) .ok 0xDD#32 1 0x00880006#32 = true ∧
    row (exec .squeeze (blockAt .idle 0#1 0#8)) .protocolViolation 0#32 0 0x00000020#32 = true ∧
    row (exec .squeeze (blockAt .absorbing 0#1 0#8)) .protocolViolation 0#32 0 0x00A80021#32 = true := by decide

/-- 95_test_vectors.md I13: RDSTAT shows the sticky bits and does not clear them. -/
theorem test_rdstat :
    row (exec .rdstat (withSticky true true true (blockAt .squeezing 0#1 1#8))) .ok 0x00A80172#32 0 0x00A80172#32 = true := by
  decide

/-- 95_test_vectors.md I11, A8, F9, Q9, PR1, PR2, PR4: decode comes before strength and phase. -/
theorem test_illegal_words :
    row (execWord 0x10010080#32 State.reset) .illegalCommand 0#32 0 0x00000040#32 = true ∧
    row (execWord 0x20000161#32 (blockAt .absorbing 0#1 0#8)) .illegalCommand 0#32 0 0x00A80041#32 = true ∧
    row (execWord 0x30000001#32 (blockAt .idle 0#1 0#8)) .illegalCommand 0#32 0 0x00000040#32 = true ∧
    row (execWord 0x40000001#32 (blockAt .squeezing 0#1 0#8)) .illegalCommand 0#32 0 0x00A80042#32 = true ∧
    row (execWord 0x20000161#32 (blockAt .squeezing 0#1 0#8)) .illegalCommand 0#32 0 0x00A80042#32 = true := by decide

/-! ### The step and the ports -/

/-- 95_test_vectors.md RS1 and I1: the first command after reset. -/
theorem test_step_first_command :
    row (step (State.reset.withFetchWord 32 0x40000000)) .protocolViolation 0#32 0 0x00000020#32 = true ∧
    row (step (State.reset.withFetchWord 32 0x10000080)) .ok 0#32 0 0x00A80001#32 = true ∧
    answers (step State.reset) (fun t => decide (t.statusWord = 0x00000000#32)) = true := by decide

/-- The edge with every pin low but `rst_n`, the block getting on with its work. -/
def quietEdge : Edge := ⟨true, false, 0#32, false, false, 0#1600, true⟩

/-- 60_exceptions.md R211, 95_test_vectors.md A3: an ABSORB that fills the block raises `perm_req` and waits. -/
theorem test_tick_requests_permutation :
    answers (tick { quietEdge with cmdValid := true, cmdWord := 0x200000FF#32 } (blockAt .absorbing 0#1 167#8))
      (fun t => t.permReq && t.busy && !t.rspValid && !cmdReady true t && decide (t.permCount = 1)) = true := by decide

/-- 60_exceptions.md R211, 95_test_vectors.md A3: the response appears once `perm_done` has come. -/
theorem test_tick_takes_permutation :
    answers (tick { quietEdge with permDone := true } (withStage (.permuting .absorb) (blockAt .absorbing 0#1 168#8)))
      (fun t => !t.permReq && t.rspValid && decide (t.statusWord = 0x00A80001#32)) = true := by decide

/-- 60_exceptions.md R200: the codes on `rsp_status`, here of an illegal word presented in IDLE. -/
theorem test_tick_presents_status_code :
    answers (tick { quietEdge with cmdValid := true, cmdWord := 0x60000000#32 } State.reset)
      (fun t => t.rspValid && decide (t.rspStatusCode = 3#3)) = true ∧
    Status.ok.code = 0#3 ∧ Status.unsupportedStrength.code = 1#3 ∧ Status.protocolViolation.code = 2#3 ∧
    Status.resourceExhaustion.code = 4#3 := by decide

/-- 95_test_vectors.md RS2, RS3: reset abandons the command in flight and leaves STATUS 00000000. -/
theorem test_tick_reset :
    answers (tick { quietEdge with rstN := false, permDone := true }
        (withStage (.permuting .absorb) (withSticky false true false (blockAt .absorbing 0#1 168#8))))
      (fun t => decide (t.statusWord = 0#32) && !t.busy && decide (t.rspLog = [])) = true := by decide

set_option maxRecDepth 4096 in
/-- 20_memory.md R55: byte 49 is the second byte of lane A[1][1], both ways. -/
theorem test_lane_byte :
    (lane (setByte zeroBytes 49 0x80#8) 1 1).getLsbD 15 = true ∧
    (lane (setByte zeroBytes 49 0x80#8) 1 1).getLsbD 7 = false ∧
    byteAt (ofLanes fun x y => if x = 1 ∧ y = 1 then 0x8000#64 else 0#64) 49 = 0x80#8 := by decide

/-! ### Witnesses: for every obligation with hypotheses, a state and operands that meet them

One conjunct a clause, at the edges of its range and at both strengths. -/

/-- What `answers` says, as a next state. -/
theorem exists_of_answers {o : Out} {p : State → Bool} (h : answers o p = true) : ∃ t, o = .next t ∧ p t = true := by
  cases o with
  | next t => exact ⟨t, rfl, h⟩
  | fault r => cases h
  | refused r => cases h

theorem witness_RateBytesFollowsPhaseAndStrength :
    State.reset.phase = .idle ∧
    ((blockAt .absorbing 0#1 0#8).phase ≠ .idle ∧ (blockAt .absorbing 0#1 0#8).str = 0#1) ∧
    ((blockAt .squeezing 1#1 0#8).phase ≠ .idle ∧ (blockAt .squeezing 1#1 0#8).str = 1#1) := by decide

theorem witness_NopOnlyResponds : opField 0x0FFFFFFF#32 = 0#4 ∧ 0x0FFFFFFF#32 ≠ 0#32 := by decide

theorem witness_InitCreatesAFreshSession :
    ((128#16 = 128#16 ∧ (0#1 : BitVec 1) = 0#1) ∨ (128#16 = 256#16 ∧ (0#1 : BitVec 1) = 1#1)) ∧
    ((256#16 = 128#16 ∧ (1#1 : BitVec 1) = 0#1) ∨ (256#16 = 256#16 ∧ (1#1 : BitVec 1) = 1#1)) := by decide

theorem witness_InitRejectsEveryOtherStrength :
    (127#16 ≠ 128#16 ∧ 127#16 ≠ 256#16) ∧ (257#16 ≠ 128#16 ∧ 257#16 ≠ 256#16) ∧
    (0#16 ≠ 128#16 ∧ 0#16 ≠ 256#16) ∧ (65535#16 ≠ 128#16 ∧ 65535#16 ≠ 256#16) := by decide

theorem witness_RdstatReturnsTheStatusWord :
    (withSticky true true true State.reset).phase = .idle ∧
    betweenCommands (withSticky true true true State.reset) = true := by decide

/-- ABSORB's phase with POS inside the block, at its last byte, and another phase. -/
theorem witness_AbsorbXorsTheByteAndAdvances :
    ((blockAt .absorbing 0#1 166#8).phase = .absorbing ∧
      (blockAt .absorbing 0#1 166#8).pos.toNat + 1 < (blockAt .absorbing 0#1 166#8).rateBytes.toNat) ∧
    ((blockAt .absorbing 1#1 134#8).phase = .absorbing ∧
      (blockAt .absorbing 1#1 134#8).pos.toNat + 1 < (blockAt .absorbing 1#1 134#8).rateBytes.toNat) ∧
    ((blockAt .absorbing 0#1 167#8).phase = .absorbing ∧
      (blockAt .absorbing 0#1 167#8).pos.toNat + 1 = (blockAt .absorbing 0#1 167#8).rateBytes.toNat) ∧
    ((blockAt .absorbing 1#1 135#8).phase = .absorbing ∧
      (blockAt .absorbing 1#1 135#8).pos.toNat + 1 = (blockAt .absorbing 1#1 135#8).rateBytes.toNat) ∧
    (blockAt .idle 0#1 0#8).phase ≠ .absorbing ∧ (blockAt .squeezing 0#1 0#8).phase ≠ .absorbing := by decide

/-- FINALIZE's phase with POS at both ends of the block, and another phase. -/
theorem witness_FinalizePadsPermutesAndSqueezes :
    ((blockAt .absorbing 0#1 0#8).phase = .absorbing ∧
      (blockAt .absorbing 0#1 0#8).pos.toNat < (blockAt .absorbing 0#1 0#8).rateBytes.toNat) ∧
    ((blockAt .absorbing 0#1 167#8).phase = .absorbing ∧
      (blockAt .absorbing 0#1 167#8).pos.toNat < (blockAt .absorbing 0#1 167#8).rateBytes.toNat) ∧
    ((blockAt .absorbing 1#1 135#8).phase = .absorbing ∧
      (blockAt .absorbing 1#1 135#8).pos.toNat < (blockAt .absorbing 1#1 135#8).rateBytes.toNat) ∧
    State.reset.phase ≠ .absorbing ∧ (blockAt .squeezing 0#1 0#8).phase ≠ .absorbing := by decide

theorem witness_FinalizePadsCoincideInOneByte :
    ((blockAt .absorbing 0#1 167#8).phase = .absorbing ∧
      (blockAt .absorbing 0#1 167#8).pos.toNat = (blockAt .absorbing 0#1 167#8).rateBytes.toNat - 1) ∧
    ((blockAt .absorbing 1#1 135#8).phase = .absorbing ∧
      (blockAt .absorbing 1#1 135#8).pos.toNat = (blockAt .absorbing 1#1 135#8).rateBytes.toNat - 1) := by decide

/-- SQUEEZE's phase with POS inside the block, at its last byte, and another phase. -/
theorem witness_SqueezeReturnsTheByteAndAdvances :
    ((blockAt .squeezing 0#1 166#8).phase = .squeezing ∧
      (blockAt .squeezing 0#1 166#8).pos.toNat + 1 < (blockAt .squeezing 0#1 166#8).rateBytes.toNat) ∧
    ((blockAt .squeezing 1#1 134#8).phase = .squeezing ∧
      (blockAt .squeezing 1#1 134#8).pos.toNat + 1 < (blockAt .squeezing 1#1 134#8).rateBytes.toNat) ∧
    ((blockAt .squeezing 0#1 167#8).phase = .squeezing ∧
      (blockAt .squeezing 0#1 167#8).pos.toNat + 1 = (blockAt .squeezing 0#1 167#8).rateBytes.toNat) ∧
    ((blockAt .squeezing 1#1 135#8).phase = .squeezing ∧
      (blockAt .squeezing 1#1 135#8).pos.toNat + 1 = (blockAt .squeezing 1#1 135#8).rateBytes.toNat) ∧
    (blockAt .idle 0#1 0#8).phase ≠ .squeezing ∧ (blockAt .absorbing 1#1 0#8).phase ≠ .squeezing := by decide

/-- NOP, RDSTAT and INIT answer; INIT also rejected. -/
theorem witness_FrameOfSessionControlCommands :
    (∃ t, exec .nop State.reset = .next t) ∧ (∃ t, exec .rdstat State.reset = .next t) ∧
    (∃ t, exec (.init 128#16) State.reset = .next t) ∧
    ∃ t, exec (.init 512#16) (blockAt .squeezing 1#1 9#8) = .next t ∧ decide (t.rspStatus ≠ .ok) = true :=
  ⟨⟨_, rfl⟩, ⟨_, rfl⟩, ⟨_, rfl⟩, exists_of_answers (by decide)⟩

/-- ABSORB inside a block, at its last byte, and rejected. -/
theorem witness_FrameOfAbsorb :
    (∃ t, exec (.absorb 1#8) (blockAt .absorbing 0#1 0#8) = .next t ∧ decide (t.rspStatus = .ok ∧ t.perms = 0) = true) ∧
    (∃ t, exec (.absorb 1#8) (blockAt .absorbing 1#1 135#8) = .next t ∧
      decide (t.rspStatus = .ok ∧ t.perms = 1) = true) ∧
    ∃ t, exec (.absorb 1#8) State.reset = .next t ∧ decide (t.rspStatus ≠ .ok) = true :=
  ⟨exists_of_answers (by decide), exists_of_answers (by decide), exists_of_answers (by decide)⟩

theorem witness_FrameOfFinalize :
    (∃ t, exec .finalize (blockAt .absorbing 0#1 167#8) = .next t ∧ decide (t.rspStatus = .ok) = true) ∧
    ∃ t, exec .finalize (blockAt .squeezing 1#1 3#8) = .next t ∧ decide (t.rspStatus ≠ .ok) = true :=
  ⟨exists_of_answers (by decide), exists_of_answers (by decide)⟩

/-- SQUEEZE inside a block, at its last byte, and rejected. -/
theorem witness_FrameOfSqueeze :
    (∃ t, exec .squeeze (blockAt .squeezing 0#1 0#8) = .next t ∧ decide (t.rspStatus = .ok ∧ t.perms = 0) = true) ∧
    (∃ t, exec .squeeze (blockAt .squeezing 1#1 135#8) = .next t ∧ decide (t.rspStatus = .ok ∧ t.perms = 1) = true) ∧
    ∃ t, exec .squeeze (blockAt .absorbing 0#1 0#8) = .next t ∧ decide (t.rspStatus ≠ .ok) = true :=
  ⟨exists_of_answers (by decide), exists_of_answers (by decide), exists_of_answers (by decide)⟩

/-- Illegal words, and a word that names a command and answers. -/
theorem witness_IllegalWordsAndTheirRejection :
    decode 0x60000000#32 = none ∧ decode 0x20000100#32 = none ∧ decode 0x5FFFFFFF#32 = none ∧
    decode 0x40000000#32 ≠ none ∧ ∃ t, execWord 0x40000000#32 State.reset = .next t :=
  ⟨by decide, by decide, by decide, by decide, ⟨_, rfl⟩⟩

theorem witness_DecodeOfEncodeIsTheCommand : (Instr.init 65535#16).wellFormed = true := by decide

theorem witness_EncodeOfDecodeIsTheWord : decode 0x1000FFFF#32 = some (.init 0xFFFF#16) := by decide

theorem witness_AssemblerNeverTruncates :
    (-32768 ≤ (-32768 : Int) ∧ (-32768 : Int) ≤ 65535) ∧ (-32768 ≤ (65535 : Int) ∧ (65535 : Int) ≤ 65535) ∧
    ((-32769 : Int) < -32768 ∨ 65535 < (-32769 : Int)) ∧ ((65536 : Int) < -32768 ∨ 65535 < (65536 : Int)) ∧
    (0 ≤ (255 : Int) ∧ (255 : Int) ≤ 255) ∧ ((-1 : Int) < 0 ∨ 255 < (-1 : Int)) ∧
    ((256 : Int) < 0 ∨ 255 < (256 : Int)) := by decide

/-- A ready block with a command presented, legal and illegal. -/
theorem witness_StepRunsTheDecodedCommand :
    (State.reset.withFetchWord 32 0x10000080).stage = .ready ∧
    (State.reset.withFetchWord 32 0x10000080).cmdIn = 0x10000080#32 :: [] ∧
    decode 0x10000080#32 = some (.init 128#16) ∧
    (State.reset.withFetchWord 32 0x60000000).stage = .ready ∧
    (State.reset.withFetchWord 32 0x60000000).cmdIn = 0x60000000#32 :: [] ∧ decode 0x60000000#32 = none := by decide

/-- A ready block with nothing presented, and one with a command in flight. -/
theorem witness_StepWithoutAnAcceptedCommand :
    (State.reset.stage = .ready ∧ State.reset.cmdIn = []) ∧
    (withStage (.permuting .finalize) (blockAt .absorbing 0#1 0#8)).stage ≠ .ready ∧
    ∃ t, step (withStage (.permuting .finalize) (blockAt .absorbing 0#1 0#8)) = .next t ∧ true = true :=
  ⟨⟨rfl, rfl⟩, by decide, exists_of_answers (p := fun _ => true) rfl⟩

/-- An answering word for every clause. -/
theorem witness_ChecksAreMadeInOrder :
    [0x60000000#32, 0x10000200#32, 0x20000001#32, 0x30000000#32, 0x40000000#32, 0x00000000#32, 0x50000000#32].all
      (fun w => answers (execWord w (blockAt .absorbing 0#1 167#8)) fun _ => true) = true ∧
    decode 0x60000000#32 = none ∧ decode 0x10000200#32 = some (.init 512#16) ∧
    decode 0x20000001#32 = some (.absorb 1#8) ∧ decode 0x30000000#32 = some .finalize ∧
    decode 0x40000000#32 = some .squeeze ∧ decode 0x00000000#32 = some .nop ∧
    decode 0x50000000#32 = some .rdstat := by decide

/-- A rejection of each kind. -/
theorem witness_RejectionChangesOnlyTheStickyBit :
    (∃ t, execWord 0x10000200#32 State.reset = .next t ∧ decide (t.rspStatus ≠ .ok) = true) ∧
    (∃ t, execWord 0x40000000#32 State.reset = .next t ∧ decide (t.rspStatus ≠ .ok) = true) ∧
    ∃ t, execWord 0xFFFFFFFF#32 State.reset = .next t ∧ decide (t.rspStatus ≠ .ok) = true :=
  ⟨exists_of_answers (by decide), exists_of_answers (by decide), exists_of_answers (by decide)⟩

/-- A rejected word, a SQUEEZE, a RDSTAT and another command, each answering. -/
theorem witness_EachCommandGivesOneResponse :
    (∃ t, execWord 0x40000000#32 State.reset = .next t ∧ decide (t.rspStatus ≠ .ok) = true) ∧
    (∃ t, execWord 0x40000000#32 (blockAt .squeezing 0#1 0#8) = .next t ∧ decide (t.rspStatus = .ok) = true) ∧
    (∃ t, execWord 0x50000000#32 State.reset = .next t ∧ true = true) ∧
    (∃ t, execWord 0x30000000#32 (blockAt .absorbing 0#1 0#8) = .next t ∧ true = true) ∧
    decode 0x30000000#32 ≠ some .squeeze ∧ decode 0x30000000#32 ≠ some .rdstat :=
  ⟨exists_of_answers (by decide), exists_of_answers (by decide), exists_of_answers (p := fun _ => true) rfl,
    exists_of_answers (p := fun _ => true) (by decide), by decide, by decide⟩

theorem witness_PermutationCountPerCommandIsZeroOrOne :
    (∃ t, execWord 0x00000000#32 State.reset = .next t ∧ decide (t.perms = 0) = true) ∧
    ∃ t, execWord 0x30000000#32 (blockAt .absorbing 1#1 0#8) = .next t ∧ decide (t.perms = 1) = true :=
  ⟨exists_of_answers (by decide), exists_of_answers (by decide)⟩

/-- A successful INIT, a rejected INIT and another word, with sticky bits set before. -/
theorem witness_StickyBitsFollowRejectionsAndInit :
    (∃ t, execWord 0x10000100#32 (withSticky true true true State.reset) = .next t ∧
      decide (t.rspStatus = .ok) = true) ∧
    (∃ t, execWord 0x10000101#32 (withSticky false true true State.reset) = .next t ∧
      decide (t.rspStatus ≠ .ok) = true) ∧
    (∃ t, execWord 0x50000000#32 (withSticky true false true State.reset) = .next t ∧ true = true) ∧
    ∀ n, decode 0x50000000#32 ≠ some (.init n) :=
  ⟨exists_of_answers (by decide), exists_of_answers (by decide), exists_of_answers (p := fun _ => true) rfl,
    fun _ h => by simp [show decode 0x50000000#32 = some .rdstat from by decide] at h⟩

/-- States between commands, in every phase and at the edges of POS; a word that changes STR, and one that changes
PHASE. -/
theorem witness_CommandsKeepTheInvariants :
    betweenCommands State.reset = true ∧ betweenCommands (blockAt .absorbing 0#1 167#8) = true ∧
    betweenCommands (blockAt .squeezing 1#1 135#8) = true ∧
    (∃ t, execWord 0x10000100#32 (blockAt .squeezing 0#1 0#8) = .next t ∧
      decide (t.str ≠ 0#1 ∧ t.phase ≠ .squeezing) = true) ∧
    ∃ t, execWord 0x30000000#32 (blockAt .absorbing 0#1 167#8) = .next t ∧ decide (t.phase ≠ .absorbing) = true :=
  ⟨by decide, by decide, by decide, exists_of_answers (by decide), exists_of_answers (by decide)⟩

/-- A state of every stage that meets the invariant. -/
theorem witness_StepKeepsTheInvariant :
    State.reset.inv = true ∧ (withStage (.executing 0x30000000#32) (blockAt .absorbing 0#1 167#8)).inv = true ∧
    { withStage (.permuting .absorb) (blockAt .absorbing 0#1 168#8) with permReq := true }.inv = true ∧
    (withStage (.permuting (.squeeze 7#8)) (blockAt .squeezing 1#1 136#8)).inv = true ∧
    (withStage (.finishing .finalize) (blockAt .absorbing 1#1 135#8)).inv = true ∧
    (withStage .responding (blockAt .squeezing 1#1 0#8)).inv = true := by decide

/-- The same states, at an edge of any pins. -/
theorem witness_ClockEdgesKeepTheInvariant :
    { withStage (.permuting .absorb) (blockAt .absorbing 0#1 168#8) with permReq := true }.inv = true := by decide

theorem witness_ResetEdgeAbandonsTheCommandInFlight :
    { quietEdge with rstN := false, cmdValid := true, permDone := true }.rstN = false := by decide

theorem witness_ResetBytesCannotBeObserved :
    State.reset.phase = .idle ∧ betweenCommands State.reset = true := by decide

/-- A run that answers, with a rejection and a permutation in it. -/
theorem witness_ControlStateIsIndependentOfThePermutation :
    ∃ t, runWords rotated [0x40000000#32, 0x10000080#32, 0x30000000#32] State.reset = .next t ∧
      decide (t.phase = .squeezing) = true := exists_of_answers (by decide)

theorem witness_InitForgetsThePast :
    isSuccessfulInit (.init 256#16) = true ∧
    ∃ t, runWords rotated (encode (.init 256#16) :: [0x50000000#32]) (blockAt .squeezing 0#1 9#8) = .next t ∧
      true = true := ⟨by decide, exists_of_answers (p := fun _ => true) rfl⟩

theorem witness_CoreRunIsTheRunOfThePresentedWords :
    (State.reset.withFetchWord 32 0x10000080).stage = .ready ∧
    (State.reset.withFetchWord 32 0x10000080).cmdIn = [0x10000080#32] ++ [] := by decide

theorem witness_ComputeReturnsTheSpongeFunction :
    (128 = 128 ∨ 128 = 256) ∧ (256 = 128 ∨ 256 = 256) := by decide

theorem witness_ComputeStopsAtAnUnsupportedStrength :
    ((-1 : Int) ≠ 128 ∧ (-1 : Int) ≠ 256) ∧ ((512 : Int) ≠ 128 ∧ (512 : Int) ≠ 256) ∧
    ((65664 : Int) ≠ 128 ∧ (65664 : Int) ≠ 256) := by decide

/-- ABSORBING between commands, at the edges of a block and at both strengths. -/
theorem witness_AbsorbIsInvariantUnderChunking :
    ((blockAt .absorbing 0#1 167#8).phase = .absorbing ∧ betweenCommands (blockAt .absorbing 0#1 167#8) = true) ∧
    ((blockAt .absorbing 1#1 135#8).phase = .absorbing ∧ betweenCommands (blockAt .absorbing 1#1 135#8) = true) ∧
    ((blockAt .absorbing 0#1 0#8).phase = .absorbing ∧ betweenCommands (blockAt .absorbing 0#1 0#8) = true) := by decide

theorem witness_InertWordsDoNotDisturbTheSession :
    ∃ t, runWords rotated [0x10000080#32, 0x00000000#32, 0xFFFFFFFF#32, 0x20000061#32] State.reset = .next t ∧
      decide (t.pos = 1#8) = true := exists_of_answers (by decide)

/-- Two runs of SQUEEZE over the end of a block. -/
theorem witness_SqueezeIsComposable :
    ∃ t1 t2, runCommands rotated (squeezeN 1) (blockAt .squeezing 1#1 135#8) = .next t1 ∧
      runCommands rotated (squeezeN 1) t1 = .next t2 ∧ t2.pos = 1#8 :=
  ⟨_, _, rfl, rfl, rfl⟩

theorem witness_ShorterOutputIsAPrefix :
    1 ≤ 2 ∧ (∃ t, runCommands rotated (squeezeN 1) (blockAt .squeezing 0#1 167#8) = .next t) ∧
    ∃ t, runCommands rotated (squeezeN 2) (blockAt .squeezing 0#1 167#8) = .next t :=
  ⟨by decide, ⟨_, rfl⟩, ⟨_, rfl⟩⟩

theorem witness_AbsorbRunPositionAndPermutations :
    ((blockAt .absorbing 0#1 167#8).phase = .absorbing ∧ betweenCommands (blockAt .absorbing 0#1 167#8) = true) ∧
    ((blockAt .absorbing 1#1 0#8).phase = .absorbing ∧ betweenCommands (blockAt .absorbing 1#1 0#8) = true) := by decide

theorem witness_SqueezeRunPositionAndPermutations :
    ((blockAt .squeezing 0#1 0#8).phase = .squeezing ∧ betweenCommands (blockAt .squeezing 0#1 0#8) = true) ∧
    ((blockAt .squeezing 1#1 135#8).phase = .squeezing ∧ betweenCommands (blockAt .squeezing 1#1 135#8) = true) := by
  decide

theorem witness_FinalizedMessageCostsOneMorePermutation :
    ((Instr.init 128#16 = .init 128#16) ∨ Instr.init 128#16 = .init 256#16) ∧
    ((Instr.init 256#16 = .init 128#16) ∨ Instr.init 256#16 = .init 256#16) := by decide

theorem witness_FinalizeHappensOncePerSession :
    (blockAt .squeezing 0#1 0#8).phase = .squeezing ∧
    (∀ w ∈ [0x10000200#32, 0x40000000#32], ∀ i, decode w = some i → isSuccessfulInit i = false) ∧
    ∃ t, runWords rotated [0x10000200#32, 0x40000000#32] (blockAt .squeezing 0#1 0#8) = .next t := by
  refine ⟨rfl, fun w hw i hi => ?_, ⟨_, rfl⟩⟩
  simp only [List.mem_cons, List.not_mem_nil, or_false] at hw
  obtain rfl | rfl := hw
  · rw [show decode 0x10000200#32 = some (.init 512#16) from by decide] at hi
    cases hi
    decide
  · rw [show decode 0x40000000#32 = some .squeeze from by decide] at hi
    cases hi
    decide

/-- Bytes that differ in the capacity region alone: offset 168, the first of it at strength 128. -/
theorem witness_CapacityBytesDoNotShow :
    (∀ a, a < (blockAt .squeezing 0#1 0#8).rateBytes.toNat →
      byteAt (setByte zeroBytes 168 0xFF#8) a = byteAt (blockAt .squeezing 0#1 0#8).S a) ∧
    byteAt (setByte zeroBytes 168 0xFF#8) 168 ≠ byteAt (blockAt .squeezing 0#1 0#8).S 168 ∧
    ∃ t, execWord 0x40000000#32 (blockAt .squeezing 0#1 0#8) = .next t ∧ decide (t.perms = 0) = true :=
  ⟨fun a h => byteAt_setByte_ne _ _ fun e => by subst e; exact absurd h (by decide),
    by simp [byteAt_setByte_self, blockAt],
    exists_of_answers (by decide)⟩

theorem witness_EnginePortCarriesEveryByte : 199 < 200 ∧ 7 < 8 := by decide

theorem witness_LanesHoldTheBytesLittleEndian : 199 < 200 ∧ 63 < 64 := by decide

/-- A ready block and one that presents a response, out of reset. -/
theorem witness_PortHandshake :
    quietEdge.rstN = true ∧ (State.reset.stage = .ready ∧ quietEdge.cmdValid = false) ∧
    ((withStage .responding State.reset).rspValid = true ∧ quietEdge.rspReady = false) ∧
    { quietEdge with rspReady := true }.rspReady = true := by decide

/-- An edge that raises `perm_req`, and one after which it is down. -/
theorem witness_PermutationRequestIsOnePulsePerEvent :
    (blockAt .absorbing 0#1 3#8).inv = true ∧
    (∃ t, tick { quietEdge with cmdValid := true, cmdWord := 0x30000000#32 } (blockAt .absorbing 0#1 3#8) = .next t ∧
      t.permReq = true) ∧
    ∃ t, tick quietEdge (blockAt .absorbing 0#1 3#8) = .next t ∧ decide (t.permReq = false) = true :=
  ⟨by decide, exists_of_answers (by decide), exists_of_answers (by decide)⟩

/-- The edge at which an honest engine answers. -/
def answerEdge (s : State) : Edge := { quietEdge with permDone := true, permStateI := packState (Config.permute s.S) }

/-- An edge that answers an outstanding request honestly gives a next state. -/
theorem answerEdge_meets (k : Resume) (s : State) (h : s.stage = .permuting k) :
    (answerEdge s).rstN = true ∧ engineHonest Config.permute (answerEdge s) s ∧
      ∃ t, tick (answerEdge s) s = .next t := by
  refine ⟨rfl, ?_, finishCommand k (loadPermuted (unpackState (answerEdge s).permStateI) s), ?_⟩
  · unfold engineHonest
    rw [h]
    intro _
    simp only [answerEdge]
  · unfold tick
    rw [h, if_neg (by simp [answerEdge, quietEdge])]
    simp only [answerEdge, quietEdge, if_true]

/-- An edge that accepts a command, and one at which an honest engine answers. -/
theorem witness_ClockEdgesRefineTheCommands :
    (State.reset.inv = true ∧ engineHonest Config.permute { quietEdge with cmdValid := true } State.reset ∧
      accepts { quietEdge with cmdValid := true } State.reset = true ∧
      ∃ t, tick { quietEdge with cmdValid := true } State.reset = .next t) ∧
    ((withStage (.permuting .finalize) (blockAt .absorbing 0#1 3#8)).inv = true ∧
      (answerEdge (withStage (.permuting .finalize) (blockAt .absorbing 0#1 3#8))).rstN = true ∧
      engineHonest Config.permute (answerEdge (withStage (.permuting .finalize) (blockAt .absorbing 0#1 3#8)))
        (withStage (.permuting .finalize) (blockAt .absorbing 0#1 3#8)) ∧
      ∃ t, tick (answerEdge (withStage (.permuting .finalize) (blockAt .absorbing 0#1 3#8)))
        (withStage (.permuting .finalize) (blockAt .absorbing 0#1 3#8)) = .next t) :=
  ⟨⟨by decide, trivial, by decide, ⟨_, rfl⟩⟩, by decide, answerEdge_meets .finalize _ rfl⟩

theorem witness_CommandCompletesWithTheEngine :
    (∀ k, 1 ≤ Config.permLatency k) ∧ State.reset.inv = true ∧ State.reset.stage = .ready ∧
    (Engine.mk 0 none).job = none := ⟨fun _ => Nat.le_add_left _ _, by decide, rfl, rfl⟩

/-- A FINALIZE, with one further edge. -/
theorem witness_PermutingCommandWaitsForTheEngine :
    (∀ k, 1 ≤ Config.permLatency k) ∧ (blockAt .absorbing 0#1 0#8).inv = true ∧
    (blockAt .absorbing 0#1 0#8).stage = .ready ∧ (Engine.mk 0 none).job = none ∧
    (∃ t, execWord 0x30000000#32 (blockAt .absorbing 0#1 0#8) = .next t ∧ decide (t.perms = 1) = true) ∧
    (∀ h ∈ [HostPins.mk true false 0#32 true true], h.rstN = true) ∧
    [HostPins.mk true false 0#32 true true].length ≤ Config.permLatency (Engine.mk 0 none).taken :=
  ⟨fun _ => Nat.le_add_left _ _, by decide, rfl, rfl, exists_of_answers (by decide), by decide, Nat.le_add_left _ _⟩

/-- The second of two instances is given the words of COMPUTE, with steps of the first in between. -/
theorem witness_InstancesShareNothing :
    (256 = 128 ∨ 256 = 256) ∧
    [blockAt .squeezing 0#1 9#8, { State.reset with cmdIn := computeWords 256 [0x61#8] 1 }][1]? =
      some { State.reset with cmdIn := computeWords 256 [0x61#8] 1 } ∧
    { State.reset with cmdIn := computeWords 256 [0x61#8] 1 }.stage = .ready ∧
    { State.reset with cmdIn := computeWords 256 [0x61#8] 1 }.cmdIn = computeWords 256 [0x61#8] 1 ++ [] ∧
    [1, 0, 1, 0, 0, 1, 1].count 1 = (computeWords 256 [0x61#8] 1).length ∧ (0 : Nat) ≠ 1 :=
  ⟨by decide, rfl, rfl, rfl, by decide, by decide⟩

end Sys2Proof.Tests
end

section
/-! SUPPORT. Proofs of the family 10_state.md: the sticky error bits (R28) and RATE_BYTES (R25). -/

namespace Sys2Proof.Machine

/-! ### The status of an error -/

/-- A rejection never reports OK (60_exceptions.md R201). -/
@[simp] theorem Error.status_ne_ok (e : Error) : e.status ≠ .ok := by cases e <;> decide

@[simp] theorem Error.status_eq_unsupportedStrength {e : Error} :
    e.status = .unsupportedStrength ↔ e = .unsupportedStrength := by cases e <;> decide

@[simp] theorem Error.status_eq_protocolViolation {e : Error} :
    e.status = .protocolViolation ↔ e = .protocolViolation := by cases e <;> decide

@[simp] theorem Error.status_eq_illegalCommand {e : Error} :
    e.status = .illegalCommand ↔ e = .illegalCommand := by cases e <;> decide

/-! ### The sticky bits -/

/-- All three sticky bits are 0 (10_state.md R28). -/
def noSticky (t : State) : Prop := t.errUnsup = false ∧ t.errProto = false ∧ t.errIllegal = false

/-- Each sticky bit of `t` is that of `s`, or 1 when the response of `t` reports its own status (10_state.md R28). -/
def addsSticky (s t : State) : Prop :=
  t.errUnsup = (s.errUnsup || decide (t.rspStatus = .unsupportedStrength)) ∧
  t.errProto = (s.errProto || decide (t.rspStatus = .protocolViolation)) ∧
  t.errIllegal = (s.errIllegal || decide (t.rspStatus = .illegalCommand))

theorem noSticky_respond_newSession (st : Status) (d : Word) (b : BitVec 1) (s : State) :
    noSticky (respond st d (newSession b s)) := ⟨rfl, rfl, rfl⟩

theorem addsSticky_raise (e : Error) (s : State) : addsSticky s (raise e s) := by simp [addsSticky]

/-- A state that reports OK and shows the sticky bits of `s` has added none. -/
theorem addsSticky_of_ok {s t : State} (ho : t.rspStatus = .ok) (hu : t.errUnsup = s.errUnsup)
    (hp : t.errProto = s.errProto) (hi : t.errIllegal = s.errIllegal) : addsSticky s t := by
  simp [addsSticky, ho, hu, hp, hi]

/-- What a command does to the sticky bits: an INIT that reports OK clears them, and every other answer adds at most
the bit of its status. -/
theorem Effect.sticky {P : Permute} {s t : State} {c : Option Instr} (h : Effect P s c t) :
    ((∃ n, c = some (.init n)) ∧ t.rspStatus = .ok ∧ noSticky t) ∨
      (((∀ n, c ≠ some (.init n)) ∨ t.rspStatus ≠ .ok) ∧ addsSticky s t) := by
  cases h with
  | init => exact .inl ⟨⟨_, rfl⟩, rfl, noSticky_respond_newSession ..⟩
  | nop => exact .inr ⟨.inl nofun, addsSticky_of_ok rfl rfl rfl rfl⟩
  | rdstat => exact .inr ⟨.inl nofun, addsSticky_of_ok rfl rfl rfl rfl⟩
  | absorb | finalize | squeeze =>
    exact .inr ⟨.inl nofun, addsSticky_of_ok (by simp) (by simp) (by simp) (by simp)⟩
  | initRejected | absorbRejected | finalizeRejected | squeezeRejected | illegal =>
    exact .inr ⟨.inr (by simp), addsSticky_raise _ (beginCommand s)⟩

theorem noSticky_reset : noSticky State.reset := ⟨rfl, rfl, rfl⟩

theorem noSticky_resetEdge (s : State) : noSticky (resetEdge s) := ⟨rfl, rfl, rfl⟩

/-- Settles O28: `Effect.sticky` for the words that answer, and the reset states by their values. -/
theorem stickyBitsFollowRejectionsAndInit : Obligations.StickyBitsFollowRejectionsAndInit := by
  obtain ⟨hunsup, hproto, hillegal⟩ := noSticky_reset
  refine ⟨fun w s t h => ?_, hunsup, hproto, hillegal, noSticky_resetEdge⟩
  rw [execWord_eq_execWordWith, execWordWith_eq_next] at h
  obtain ⟨⟨n, hinit⟩, hok, hclear⟩ | ⟨hother, hadds⟩ := h.sticky
  · refine ⟨fun _ _ _ => hclear, ?_⟩
    rintro (hne | hne)
    · exact absurd hinit (hne n)
    · exact absurd hok hne
  · refine ⟨fun n hinit hok => ?_, fun _ => hadds⟩
    obtain hne | hne := hother
    · exact absurd hinit (hne n)
    · exact absurd hok hne

/-! ### RATE_BYTES -/

theorem rateBytes_of_str_zero {s : State} (hp : s.phase ≠ .idle) (hs : s.str = 0#1) : s.rateBytes = 168#8 := by
  simp [State.rateBytes, hp, hs]

theorem rateBytes_of_str_one {s : State} (hp : s.phase ≠ .idle) (hs : s.str = 1#1) : s.rateBytes = 136#8 := by
  simp [State.rateBytes, hp, hs]

/-- Outside IDLE, RATE_BYTES is RATE_BITS / 8 of the strength STR stands for (00_scope.md R6). -/
theorem rateBytes_toNat_eq_rateBits {s : State} (hp : s.phase ≠ .idle) :
    s.rateBytes.toNat = rateBits (strengthOf s.str) / 8 := by
  obtain ⟨hs, hr⟩ | ⟨hs, hr⟩ := rateBytes_cases hp <;> rw [hr] <;> simp [strengthOf, rateBits, hs]

/-- Settles O1, by the two values STR takes outside IDLE. -/
theorem rateBytesFollowsPhaseAndStrength : Obligations.RateBytesFollowsPhaseAndStrength := fun _ =>
  ⟨rateBytes_idle, rateBytes_of_str_zero, rateBytes_of_str_one, rateBytes_toNat_eq_rateBits⟩

end Sys2Proof.Machine
end

section
/-! SUPPORT. Proofs of the family 30_encoding.md: a word decodes to a command exactly when it is the command's one word
(R78), and is that word exactly when it matches the command's row of the table and holds its operand (R74). -/

namespace Sys2Proof

/-! ### Decoding and encoding -/

/-- Bits of the ARG field of a word built from its fields are bits of its operand. -/
theorem extract_packWord (op : BitVec 4) (arg : BitVec 16) (k n : Nat) (h : k + n ≤ 16) :
    (packWord op arg).extractLsb' k n = arg.extractLsb' k n := by
  rw [← extract_argField _ k n h, argField_packWord]

theorem decode_encode (i : Instr) : decode (encode i) = some i := by
  cases i with
  | absorb b =>
    have hpad : (0#8 ++ b).extractLsb' 8 8 = 0#8 := BitVec.extractLsb'_append_eq_left
    have hbyte : (0#8 ++ b).extractLsb' 0 8 = b := BitVec.extractLsb'_append_eq_right
    simp [decode, encode, extract_packWord, hpad, hbyte]
  | nop | init | finalize | squeeze | rdstat => simp [decode, encode]

/-- An ARG field with bits 15:8 zero is its low byte, extended (30_encoding.md R73). -/
theorem argField_eq_zero_append {w : Word} (h : w.extractLsb' 8 8 = 0#8) :
    argField w = 0#8 ++ w.extractLsb' 0 8 := by
  rw [← h]
  exact (BitVec.extractLsb'_append_extractLsb'_eq_extractLsb' (start₁ := 0) (len₁ := 8) (len₂ := 8) rfl).symm

/-- A word that decodes has no MBZ bit set (30_encoding.md R72). -/
theorem mbzField_of_decode {w : Word} {i : Instr} (h : decode w = some i) : mbzField w = 0#12 := by
  by_contra hm
  simp [decode, hm] at h

/-- A word that decodes is the word of its command: the branch taken fixes the fields that `packWord` puts together. -/
theorem encode_of_decode {w : Word} {i : Instr} (h : decode w = some i) : encode i = w := by
  rw [← packWord_fields (mbzField_of_decode h)]
  unfold decode at h
  split_ifs at h with _ hop harg hop hop hpad hop harg hop harg hop harg <;> cases h
  · rw [hop, harg, encode]
  · rw [hop, encode]
  · rw [hop, argField_eq_zero_append hpad, encode]
  all_goals rw [hop, harg, encode]

theorem decode_eq_some_iff (w : Word) (i : Instr) : decode w = some i ↔ w = encode i :=
  ⟨fun h => (encode_of_decode h).symm, fun h => h ▸ decode_encode i⟩

/-! ### The rows of the table -/

/-- The number of bits the mask of the command's row leaves, all at the low end (`mask_eq_shiftLeft`). -/
def Instr.operandBits : Instr → Nat
  | .init _ => 16
  | .absorb _ => 8
  | .nop | .finalize | .squeeze | .rdstat => 0

/-- The operand of a command, which its word holds in those bits (`extract_encode`; 30_encoding.md R73). -/
def Instr.operand : (i : Instr) → BitVec i.operandBits
  | .init n => n
  | .absorb b => b
  | .nop | .finalize | .squeeze | .rdstat => 0#0

theorem mask_eq_shiftLeft (i : Instr) : i.mask = BitVec.allOnes 32 <<< i.operandBits := by
  cases i with
  | init => exact show 0xFFFF0000#32 = BitVec.allOnes 32 <<< 16 by decide
  | absorb => exact show 0xFFFFFF00#32 = BitVec.allOnes 32 <<< 8 by decide
  | nop | finalize | squeeze | rdstat => decide

theorem extract_encode (i : Instr) : (encode i).extractLsb' 0 i.operandBits = i.operand := by
  cases i with
  | init n => exact argField_packWord _ n
  | absorb b => exact (extract_packWord _ _ 0 8 (by decide)).trans BitVec.extractLsb'_append_eq_right
  | nop | finalize | squeeze | rdstat => rfl

/-- A mask over OP, MBZ and part of ARG keeps OP and that part of ARG. -/
theorem packWord_and_mask (op : BitVec 4) (arg m : BitVec 16) :
    packWord op arg &&& (BitVec.allOnes 4 ++ BitVec.allOnes 12 ++ m) = packWord op (arg &&& m) := by
  rw [packWord, packWord, BitVec.and_append, BitVec.and_append, BitVec.and_allOnes, BitVec.zero_and]

/-- A byte extended to ARG has no bit under the ARG part of ABSORB's mask. -/
theorem zero_append_and_mask (b : Byte) : (0#8 ++ b) &&& (BitVec.allOnes 8 ++ 0#8) = 0#16 := by
  rw [BitVec.and_append, BitVec.zero_and, BitVec.and_zero]
  rfl

/-- A command's word matches the command's row. -/
theorem encode_and_mask (i : Instr) : encode i &&& i.mask = i.matchWord := by
  cases i with
  | init n => exact (packWord_and_mask 0x1#4 n 0#16).trans (congrArg _ BitVec.and_zero)
  | absorb b => exact (packWord_and_mask 0x2#4 _ _).trans (congrArg _ (zero_append_and_mask b))
  | nop | finalize | squeeze | rdstat => rfl

/-- A word is determined by its bits from `k` on and the `k` bits below. -/
theorem eq_iff_masked_and_low (w v : Word) (k : Nat) :
    w = v ↔ w &&& BitVec.allOnes 32 <<< k = v &&& BitVec.allOnes 32 <<< k ∧ w.extractLsb' 0 k = v.extractLsb' 0 k := by
  refine ⟨fun h => h ▸ ⟨rfl, rfl⟩, fun ⟨hhigh, hlow⟩ => BitVec.eq_of_getLsbD_eq fun i hi => ?_⟩
  by_cases hk : i < k
  · have hbit := congrArg (BitVec.getLsbD · i) hlow
    simpa [hk] using hbit
  · have hbit := congrArg (BitVec.getLsbD · i) hhigh
    have hsub : i - k < 32 := by omega
    simpa only [BitVec.getLsbD_and, BitVec.getLsbD_shiftLeft, BitVec.getLsbD_allOnes, hi, hk, hsub, decide_true,
      decide_false, Bool.not_false, Bool.and_true] using hbit

/-- 30_encoding.md R74: a word selects a command exactly when it matches the command's row and holds the command's
operand in the bits the mask leaves. -/
theorem decode_eq_some_iff_row (w : Word) (i : Instr) :
    decode w = some i ↔ w &&& i.mask = i.matchWord ∧ w.extractLsb' 0 i.operandBits = i.operand := by
  rw [decode_eq_some_iff, eq_iff_masked_and_low w _ i.operandBits, ← mask_eq_shiftLeft, encode_and_mask, extract_encode]

/-- A command without an operand is selected by its row alone. -/
theorem decode_eq_some_iff_of_operandBits_zero (w : Word) (i : Instr) (h : i.operandBits = 0) :
    decode w = some i ↔ w &&& i.mask = i.matchWord := by
  have : Subsingleton (BitVec i.operandBits) := h ▸ inferInstance
  rw [decode_eq_some_iff_row, and_iff_left (Subsingleton.elim ..)]

/-- Settles O17: each row of the statement is `decode_eq_some_iff_row` at its command. -/
theorem decodingFollowsTheOpcodeTable : Obligations.DecodingFollowsTheOpcodeTable := fun w =>
  ⟨(decode_eq_some_iff_of_operandBits_zero w .nop rfl).symm,
    fun n => (decode_eq_some_iff_row w (.init n)).symm,
    fun b => (decode_eq_some_iff_row w (.absorb b)).symm,
    (decode_eq_some_iff_of_operandBits_zero w .finalize rfl).symm,
    (decode_eq_some_iff_of_operandBits_zero w .squeeze rfl).symm,
    (decode_eq_some_iff_of_operandBits_zero w .rdstat rfl).symm⟩

end Sys2Proof
end

section
/-! SUPPORT. Proofs of the family 40_session_control.md: NOP (R100) and the rejected INIT (R102). -/

namespace Sys2Proof.Machine

/-! ### NOP -/

/-- Opcode 0 is NOP's alone (30_encoding.md R74). -/
theorem opField_encode_eq_zero_iff (i : Instr) : opField (encode i) = 0#4 ↔ i = .nop := by
  cases i <;> simp [encode]

/-- A word with NOP's opcode that is not all zero names no command (40_session_control.md R100). -/
theorem decode_eq_none_of_opField_zero {w : Word} (hop : opField w = 0#4) (hw : w ≠ 0#32) : decode w = none := by
  cases hd : decode w with
  | none => rfl
  | some i =>
    obtain rfl := encode_of_decode hd
    obtain rfl := (opField_encode_eq_zero_iff i).mp hop
    exact absurd rfl hw

/-- The effect of NOP is the response alone (40_session_control.md R100). -/
theorem exec_nop (s : State) : exec .nop s = .next (respond .ok 0#32 (beginCommand s)) := rfl

/-- Settles O3: the word by decoding and encoding, the next state by `exec_nop`. -/
theorem nopOnlyResponds : Obligations.NopOnlyResponds :=
  ⟨fun w => decode_eq_some_iff w .nop, fun _ => decode_eq_none_of_opField_zero, exec_nop⟩

/-! ### INIT -/

/-- STR has no value for a strength other than 128 and 256 (30_encoding.md R75). -/
theorem strengthBit_eq_none_iff {n : BitVec 16} : strengthBit n = none ↔ n ≠ 128#16 ∧ n ≠ 256#16 := by
  by_cases h128 : n = 128#16
  · simp [strengthBit, h128]
  · by_cases h256 : n = 256#16 <;> simp [strengthBit, h128, h256]

/-- INIT of a strength STR has no value for is rejected before any write (40_session_control.md R102). -/
theorem exec_init_of_strengthBit_none {n : BitVec 16} (s : State) (h : strengthBit n = none) :
    exec (.init n) s = .next (raise .unsupportedStrength (beginCommand s)) := by
  simp only [exec, execInit, initWith, h]

/-- Settles O5: any other strength has no STR value, so INIT is rejected. -/
theorem initRejectsEveryOtherStrength : Obligations.InitRejectsEveryOtherStrength := fun s _ h128 h256 =>
  exec_init_of_strengthBit_none s (strengthBit_eq_none_iff.mpr ⟨h128, h256⟩)

end Sys2Proof.Machine
end

section
/-! SUPPORT. Proofs of the family 41_absorb.md: what one ABSORB does (R120). -/

namespace Sys2Proof.Machine

/-- An effect of a decoded command is what the machine answers. -/
theorem Effect.exec_eq_next {s t : State} {i : Instr} (h : Effect Config.permute s (some i) t) :
    exec i s = .next t := by
  rw [← decode_encode i] at h
  have hword := h.execWordWith
  simpa only [Machine.execWordWith, decode_encode, exec_eq_execWith] using hword

/-! ### The advance of POS, by the value of POS -/

/-- POS + 1 is RATE_BYTES as a register exactly when it is as a number: it does not wrap inside a block. -/
theorem pos_add_one_eq_rateBytes_iff {s : State} (h : s.pos.toNat < s.rateBytes.toNat) :
    s.pos + 1#8 = s.rateBytes ↔ s.pos.toNat + 1 = s.rateBytes.toNat := by
  rw [← BitVec.toNat_inj, pos_add_one_toNat h]

theorem advancePos_of_lt (P : Permute) {s : State} (h : s.pos.toNat + 1 < s.rateBytes.toNat) :
    advancePos P s = setPos (s.pos + 1#8) s :=
  advancePos_within P (mt (pos_add_one_eq_rateBytes_iff (Nat.lt_of_succ_lt h)).mp h.ne)

theorem advancePos_of_eq (P : Permute) {s : State} (h : s.pos.toNat + 1 = s.rateBytes.toNat) :
    advancePos P s = setPos 0#8 (permute P (setPos (s.pos + 1#8) s)) :=
  advancePos_fills P ((pos_add_one_eq_rateBytes_iff (Nat.lt_of_succ_le h.le)).mpr h)

/-! ### ABSORB -/

/-- The exact word of ABSORB (30_encoding.md R74): its match with the byte in bits 7:0. -/
theorem encode_absorb (b : Byte) : encode (.absorb b) = 0x20000000#32 ||| b.setWidth 32 := by
  have hb : b.toNat < 2 ^ 32 := b.isLt.trans (by decide)
  apply BitVec.eq_of_toNat_eq
  rw [BitVec.toNat_or, BitVec.toNat_setWidth, Nat.mod_eq_of_lt hb]
  simp only [encode, packWord, BitVec.toNat_append]
  simp

/-- A byte that leaves room in its block is XORed in, and POS goes up by one. -/
theorem exec_absorb_within {s : State} (b : Byte) (hp : s.phase = .absorbing)
    (h : s.pos.toNat + 1 < s.rateBytes.toNat) :
    exec (.absorb b) s =
      .next (respond .ok 0#32 (setPos (s.pos + 1#8) (setBytes (absorbedBytes b s) (beginCommand s)))) := by
  have hadvance := advancePos_of_lt Config.permute (s := setBytes (absorbedBytes b s) (beginCommand s)) h
  rw [(Effect.absorb hp (Nat.lt_of_succ_lt h)).exec_eq_next, hadvance, setBytes_pos, beginCommand_pos]

/-- The byte that fills its block is XORed in before the permutation, and POS is 0 after it. -/
theorem exec_absorb_fills {s : State} (b : Byte) (hp : s.phase = .absorbing)
    (h : s.pos.toNat + 1 = s.rateBytes.toNat) :
    exec (.absorb b) s =
      .next (respond .ok 0#32 (setPos 0#8 (permute Config.permute
        (setPos (s.pos + 1#8) (setBytes (absorbedBytes b s) (beginCommand s)))))) := by
  have hadvance := advancePos_of_eq Config.permute (s := setBytes (absorbedBytes b s) (beginCommand s)) h
  rw [(Effect.absorb hp (Nat.lt_of_succ_le h.le)).exec_eq_next, hadvance, setBytes_pos, beginCommand_pos]

/-- Settles O7: the word by decoding and encoding, the next state by the three ways ABSORB can go. -/
theorem absorbXorsTheByteAndAdvances : Obligations.AbsorbXorsTheByteAndAdvances := fun _ b =>
  ⟨(decode_eq_some_iff _ _).mpr (encode_absorb b).symm, exec_absorb_within b, exec_absorb_fills b,
    fun hp => (Effect.absorbRejected hp).exec_eq_next⟩

end Sys2Proof.Machine
end

section
/-! SUPPORT. Proofs of the family 42_finalize.md: what FINALIZE does (R140), and the pad when both masks go into one
byte (R142). -/

namespace Sys2Proof.Machine

/-! ### XOR into one byte -/

/-- The 200 bytes XorByte leaves: `b` XORed in at offset `i` (`xorByte_eq_next_xorAt`). -/
def xorAt (S : StateBytes) (i : Nat) (b : Byte) : StateBytes := setByte S i (byteAt S i ^^^ b)

theorem byteAt_xorAt (S : StateBytes) {i : Nat} (b : Byte) (h : i < 200) (a : Nat) :
    byteAt (xorAt S i b) a = byteAt S a ^^^ if a = i then b else 0#8 := by
  by_cases ha : a = i
  · rw [if_pos ha, ha, xorAt, byteAt_setByte_self S _ h]
  · rw [if_neg ha, xorAt, byteAt_setByte_ne S _ ha, BitVec.xor_zero]

/-- Two XORs into one byte are one XOR of both masks. -/
theorem xorAt_xorAt (S : StateBytes) {i : Nat} (b b' : Byte) (h : i < 200) :
    xorAt (xorAt S i b) i b' = xorAt S i (b ^^^ b') := by
  rw [xorAt, byteAt_xorAt S b h, if_pos rfl, xorAt, setByte_setByte, BitVec.xor_assoc, xorAt]

theorem xorByte_eq_next_xorAt {s : State} {i : Nat} (b : Byte) (h : i < s.rateBytes.toNat) :
    xorByte i b s = .next (setBytes (xorAt s.S i b) s) := xorByte_of_lt h

/-- The rate region lies in the 200 bytes (00_scope.md R7, R12). -/
theorem lt_stateBytes_of_lt_rateBytes {s : State} {i : Nat} (h : i < s.rateBytes.toNat) : i < 200 :=
  h.trans_le ((rateBytes_le s).trans (by decide))

/-! ### The pad -/

theorem paddedBytes_eq_xorAt (s : State) :
    paddedBytes s = xorAt (xorAt s.S s.posOffset 0x1F#8) s.padEndOffset 0x80#8 := rfl

/-- The pad, byte by byte: 0x1F at POS, 0x80 at RATE_BYTES − 1, no other byte (42_finalize.md R141). -/
theorem byteAt_paddedBytes {s : State} (h : s.pos.toNat < s.rateBytes.toNat) (a : Nat) :
    byteAt (paddedBytes s) a = byteAt s.S a ^^^ (if a = s.pos.toNat then 0x1F#8 else 0#8) ^^^
      (if a = s.rateBytes.toNat - 1 then 0x80#8 else 0#8) := by
  have hstart : s.posOffset < 200 := lt_stateBytes_of_lt_rateBytes h
  have hend : s.padEndOffset < 200 := lt_stateBytes_of_lt_rateBytes (Nat.sub_one_lt_of_lt h)
  rw [paddedBytes_eq_xorAt, byteAt_xorAt _ _ hend, byteAt_xorAt _ _ hstart, State.posOffset, State.padEndOffset]

/-- With POS at the pad's end both masks go into one byte (42_finalize.md R142). -/
theorem paddedBytes_of_posOffset_eq {s : State} (h : s.padEndOffset < 200) (heq : s.posOffset = s.padEndOffset) :
    paddedBytes s = xorAt s.S s.padEndOffset 0x9F#8 := by
  rw [paddedBytes_eq_xorAt, heq, xorAt_xorAt _ _ _ h]
  rfl

/-- With POS at the pad's end, the pad bytes XORed in the other order (42_finalize.md R142). -/
theorem padEnd_then_padStart_of_posOffset_eq {s : State} (h : s.padEndOffset < s.rateBytes.toNat)
    (heq : s.posOffset = s.padEndOffset) :
    (andThen (xorByte s.padEndOffset 0x80#8 s) fun s1 => xorByte s1.posOffset 0x1F#8 s1) =
      .next (setBytes (xorAt s.S s.padEndOffset 0x9F#8) s) := by
  have hsecond : s.padEndOffset < (setBytes (xorAt s.S s.padEndOffset 0x80#8) s).rateBytes.toNat := h
  rw [xorByte_eq_next_xorAt _ h, andThen_next, setBytes_posOffset, heq, xorByte_eq_next_xorAt _ hsecond, setBytes_S,
    xorAt_xorAt _ _ _ (lt_stateBytes_of_lt_rateBytes h)]
  rfl

/-! ### FINALIZE -/

/-- FINALIZE in its phase, POS in the rate region: the pad, one permutation, SQUEEZING with POS 0. -/
theorem exec_finalize_of_absorbing {s : State} (hp : s.phase = .absorbing) (h : s.pos.toNat < s.rateBytes.toNat) :
    exec .finalize s = .next (respond .ok 0#32
      (enterSqueezing (permute Config.permute (setBytes (paddedBytes s) (beginCommand s))))) :=
  (Effect.finalize hp h).exec_eq_next

/-- Settles O8: the word by decoding and encoding, the next state by the two ways FINALIZE can go. -/
theorem finalizePadsPermutesAndSqueezes : Obligations.FinalizePadsPermutesAndSqueezes :=
  ⟨decode_encode .finalize, fun s =>
    ⟨fun hp h => ⟨paddedBytes s, byteAt_paddedBytes h, exec_finalize_of_absorbing hp h⟩,
      fun hp => (Effect.finalizeRejected hp).exec_eq_next⟩⟩

/-- A session has a rate region: RATE_BYTES is not 0 outside IDLE (10_state.md R25). -/
theorem rateBytes_toNat_pos {s : State} (hp : s.phase ≠ .idle) : 0 < s.rateBytes.toNat := by
  obtain ⟨-, hr⟩ | ⟨-, hr⟩ := rateBytes_cases hp <;> rw [hr] <;> decide

/-- Settles O9: both orders of the pad are one XOR of 0x1F and 0x80 together, and FINALIZE permutes the padded bytes. -/
theorem finalizePadsCoincideInOneByte : Obligations.FinalizePadsCoincideInOneByte := by
  intro s hp heq
  have hend : s.padEndOffset < s.rateBytes.toNat := Nat.sub_one_lt (rateBytes_toNat_pos (by simp [hp])).ne'
  have hpos : s.pos.toNat < s.rateBytes.toNat := heq.trans_lt hend
  have hbytes : paddedBytes s = xorAt s.S s.padEndOffset 0x9F#8 :=
    paddedBytes_of_posOffset_eq (lt_stateBytes_of_lt_rateBytes hend) heq
  have hpad : padBlock s = .next (setBytes (xorAt s.S s.padEndOffset 0x9F#8) s) :=
    hbytes ▸ padBlock_of_lt hpos
  exact ⟨hpad, (padEnd_then_padStart_of_posOffset_eq hend heq).trans hpad.symm,
    _, exec_finalize_of_absorbing hp hpos, congrArg Config.permute hbytes⟩

end Sys2Proof.Machine
end

section
/-! SUPPORT. Proofs of the family 43_squeeze.md: what one SQUEEZE does (R160). -/

namespace Sys2Proof.Machine

/-- The two spellings of zero extension to a response word: zeros in front (30_encoding.md R79), and `setWidth`. -/
theorem outputWord_eq_setWidth (b : Byte) : outputWord b = b.setWidth 32 :=
  (BitVec.setWidth_eq_append (by decide)).symm

/-- A SQUEEZE that leaves a byte in its block answers the byte at POS, and POS goes up by one. -/
theorem exec_squeeze_within {s : State} (hp : s.phase = .squeezing) (h : s.pos.toNat + 1 < s.rateBytes.toNat) :
    exec .squeeze s =
      .next (respond .ok ((byteAt s.S s.posOffset).setWidth 32) (setPos (s.pos + 1#8) (beginCommand s))) := by
  have hadvance := advancePos_of_lt Config.permute (s := beginCommand s) h
  rw [(Effect.squeeze hp (Nat.lt_of_succ_lt h)).exec_eq_next, hadvance, outputWord_eq_setWidth, beginCommand_pos]

/-- A SQUEEZE that uses up its block answers the byte at POS of the bytes before the permutation, and POS is 0 after
it. -/
theorem exec_squeeze_usesUp {s : State} (hp : s.phase = .squeezing) (h : s.pos.toNat + 1 = s.rateBytes.toNat) :
    exec .squeeze s =
      .next (respond .ok ((byteAt s.S s.posOffset).setWidth 32)
        (setPos 0#8 (permute Config.permute (setPos (s.pos + 1#8) (beginCommand s))))) := by
  have hadvance := advancePos_of_eq Config.permute (s := beginCommand s) h
  rw [(Effect.squeeze hp (Nat.lt_of_succ_le h.le)).exec_eq_next, hadvance, outputWord_eq_setWidth, beginCommand_pos]

/-- Settles O10: the word by decoding and encoding, the next state by the three ways SQUEEZE can go. -/
theorem squeezeReturnsTheByteAndAdvances : Obligations.SqueezeReturnsTheByteAndAdvances :=
  ⟨decode_encode .squeeze, fun _ =>
    ⟨exec_squeeze_within, exec_squeeze_usesUp, fun hp => (Effect.squeezeRejected hp).exec_eq_next⟩⟩

end Sys2Proof.Machine
end

section
/-! SUPPORT. Proofs of the family 60_exceptions.md: the illegal words (R202), and what a rejection changes (R201). -/

/-! ### The illegal words -/

namespace Sys2Proof

/-- A command's word has an opcode of the table (30_encoding.md R77). -/
theorem opField_toNat_lt_of_decode {w : Word} {i : Instr} (h : decode w = some i) : (opField w).toNat < 6 := by
  rw [← encode_of_decode h]
  cases i <;> simp [encode]

theorem decode_eq_none_of_opField_ge {w : Word} (h : 6 ≤ (opField w).toNat) : decode w = none :=
  Option.eq_none_iff_forall_ne_some.mpr fun _ hd => (opField_toNat_lt_of_decode hd).not_ge h

theorem decode_eq_none_of_mbzField_ne_zero {w : Word} (h : mbzField w ≠ 0#12) : decode w = none :=
  Option.eq_none_iff_forall_ne_some.mpr fun _ hd => h (mbzField_of_decode hd)

/-- The opcodes of the table, and the reserved ones (30_encoding.md R74, R77). -/
theorem opcode_cases (op : BitVec 4) :
    op = 0x0#4 ∨ op = 0x1#4 ∨ op = 0x2#4 ∨ op = 0x3#4 ∨ op = 0x4#4 ∨ op = 0x5#4 ∨ 6 ≤ op.toNat := by
  bv_omega

/-- The causes of 60_exceptions.md R202, by opcode once MBZ is 0. -/
theorem decode_eq_none_iff (w : Word) :
    decode w = none ↔
      (6 ≤ (opField w).toNat ∨ mbzField w ≠ 0#12 ∨
        ((opField w = 0x0#4 ∨ opField w = 0x3#4 ∨ opField w = 0x4#4 ∨ opField w = 0x5#4) ∧ argField w ≠ 0#16) ∨
        (opField w = 0x2#4 ∧ (argField w).extractLsb' 8 8 ≠ 0#8)) := by
  rw [extract_argField w 8 8 (by decide)]
  by_cases hm : mbzField w = 0#12
  · obtain hop | hop | hop | hop | hop | hop | hop := opcode_cases (opField w)
    case inr.inr.inr.inr.inr.inr => simp [hop, decode_eq_none_of_opField_ge hop]
    all_goals simp [decode, hm, hop]
  · simp [hm, decode_eq_none_of_mbzField_ne_zero hm]

end Sys2Proof

/-! ### Rejections -/

namespace Sys2Proof.Machine

/-- A command that answers reports OK, or is rejected; with ILLEGAL_COMMAND only if the word names no command
(60_exceptions.md R201, R202). -/
theorem Effect.ok_or_raise {P : Permute} {s t : State} {c : Option Instr} (h : Effect P s c t) :
    t.rspStatus = .ok ∨ ∃ e : Error, t = raise e (beginCommand s) ∧ (e = .illegalCommand → c = none) := by
  cases h with
  | nop | rdstat | init | absorb | finalize | squeeze => exact .inl (respond_rspStatus ..)
  | initRejected | absorbRejected | finalizeRejected | squeezeRejected => exact .inr ⟨_, rfl, nofun⟩
  | illegal => exact .inr ⟨_, rfl, fun _ => rfl⟩

/-- A command that is rejected leaves every register but those of its error and its response (60_exceptions.md R201). -/
theorem raise_beginCommand (e : Error) (s : State) :
    raise e (beginCommand s) = { s with
      errUnsup := s.errUnsup || decide (e = .unsupportedStrength)
      errProto := s.errProto || decide (e = .protocolViolation)
      errIllegal := s.errIllegal || decide (e = .illegalCommand)
      stage := .ready, rspStatus := e.status, rspData := 0#32, perms := 0
      rspLog := ⟨e.status, 0#32, 0⟩ :: s.rspLog } := by
  cases e <;> simp [raise, presentError, present, handOver, setSticky, beginCommand, Error.status]

/-- What a word answers: OK, or a rejection. -/
theorem execWord_ok_or_raise {w : Word} {s t : State} (h : execWord w s = .next t) :
    t.rspStatus = .ok ∨ ∃ e : Error, t = raise e (beginCommand s) ∧ (e = .illegalCommand → decode w = none) := by
  rw [execWord_eq_execWordWith, execWordWith_eq_next] at h
  exact h.ok_or_raise

/-- A word that names no command is rejected with ILLEGAL_COMMAND (60_exceptions.md R202). -/
theorem execWord_of_decode_none {w : Word} (s : State) (h : decode w = none) :
    execWord w s = .next (raise .illegalCommand (beginCommand s)) := by
  rw [execWord, h]
  rfl

/-- A word that names a command never reports ILLEGAL_COMMAND (60_exceptions.md R202). -/
theorem rspStatus_ne_illegalCommand {w : Word} {s t : State} (hw : decode w ≠ none) (h : execWord w s = .next t) :
    t.rspStatus ≠ .illegalCommand := by
  obtain hok | ⟨e, rfl, hillegal⟩ := execWord_ok_or_raise h
  · simp [hok]
  · rw [raise_rspStatus, ne_eq, Error.status_eq_illegalCommand]
    exact fun he => hw (hillegal he)

/-- Settles O18: the causes by the fields of the word, the next state by `raise_beginCommand`. -/
theorem illegalWordsAndTheirRejection : Obligations.IllegalWordsAndTheirRejection := by
  refine ⟨decode_eq_none_iff, fun w s hw => ?_, fun _ _ _ => rspStatus_ne_illegalCommand⟩
  rw [execWord_of_decode_none s hw, raise_beginCommand]
  simp [Error.status]

/-- Settles O25: a word that does not answer OK is rejected, with the next state of `raise_beginCommand`. -/
theorem rejectionChangesOnlyTheStickyBit : Obligations.RejectionChangesOnlyTheStickyBit := by
  intro w s t h hne
  obtain hok | ⟨e, rfl, -⟩ := execWord_ok_or_raise h
  · exact absurd hok hne
  · exact ⟨e, raise_rspStatus .., raise_beginCommand e s⟩

end Sys2Proof.Machine
end

section
/-! SUPPORT. Proofs about words on the wire (30_encoding.md R74, R78, R80): decoding and encoding undo each other, and
the assembler refuses an operand rather than truncate it. -/

namespace Sys2Proof.Machine

/-- Settles O19: `decode_encode` at the command. -/
theorem decodeOfEncodeIsTheCommand : Obligations.DecodeOfEncodeIsTheCommand := fun i _ => decode_encode i

/-- Settles O20: the branch `decode` took fixes every field of the word. -/
theorem encodeOfDecodeIsTheWord : Obligations.EncodeOfDecodeIsTheWord := fun _ _ => encode_of_decode

/-- Settles O16: each word evaluates to its command or to none. -/
theorem specWordsDecode : Obligations.SpecWordsDecode := by
  unfold Obligations.SpecWordsDecode
  decide

/-! ### The operands of the assembler -/

/-- A strength of R80's range in 16-bit two's complement: itself, or itself plus 65536. -/
theorem toNat_ofInt_strength {n : Int} (hlo : -32768 ≤ n) (hhi : n ≤ 65535) :
    ((BitVec.ofInt 16 n).toNat : Int) = if n < 0 then n + 65536 else n := by
  rw [BitVec.toNat_ofInt]
  split <;> omega

/-- No negative strength of R80's range has the 16 bits of a strength below 32768. -/
theorem ofInt_strength_eq_iff {n : Int} (hlo : -32768 ≤ n) (hhi : n ≤ 65535) (v : BitVec 16) (hv : v.toNat < 32768) :
    BitVec.ofInt 16 n = v ↔ n = v.toNat := by
  have hn := toNat_ofInt_strength hlo hhi
  rw [← BitVec.toNat_inj]
  split at hn <;> omega

theorem toNat_ofInt_byte {b : Int} (hlo : 0 ≤ b) (hhi : b ≤ 255) : ((BitVec.ofInt 8 b).toNat : Int) = b := by
  rw [BitVec.toNat_ofInt]
  omega

theorem assembleLine_of_inRange_false {l : AsmLine} (h : l.inRange = false) : assembleLine l = none := by
  simp [assembleLine, h]

theorem assembleLine_init {n : Int} (hlo : -32768 ≤ n) (hhi : n ≤ 65535) :
    assembleLine (.init n) = some (encode (.init (BitVec.ofInt 16 n))) := by
  simp [assembleLine, AsmLine.inRange, hlo, hhi]

theorem assembleLine_absorb {b : Int} (hlo : 0 ≤ b) (hhi : b ≤ 255) :
    assembleLine (.absorb b) = some (encode (.absorb (BitVec.ofInt 8 b))) := by
  simp [assembleLine, AsmLine.inRange, hlo, hhi]

theorem assembleLine_word (w : Word) : assembleLine (.word w.toNat) = some w := by
  have hlt : (w.toNat : Int) < 4294967296 := by exact_mod_cast w.isLt
  simp [assembleLine, AsmLine.inRange, hlt]

/-- Settles O21: in range the word is the one `encode` gives, out of range the line is refused. -/
theorem assemblerNeverTruncates : Obligations.AssemblerNeverTruncates := by
  refine ⟨fun n => ⟨fun ⟨hlo, hhi⟩ => ?_, fun hout => ?_⟩, fun b => ⟨fun ⟨hlo, hhi⟩ => ?_, fun hout => ?_⟩,
    assembleLine_word⟩
  · refine ⟨_, _, assembleLine_init hlo hhi, decode_encode _, ?_, ofInt_strength_eq_iff hlo hhi _ (by decide),
      ofInt_strength_eq_iff hlo hhi _ (by decide)⟩
    have hn := toNat_ofInt_strength hlo hhi
    split at hn <;> omega
  · exact assembleLine_of_inRange_false (by simp [AsmLine.inRange]; omega)
  · exact ⟨_, _, assembleLine_absorb hlo hhi, decode_encode _, toNat_ofInt_byte hlo hhi⟩
  · exact assembleLine_of_inRange_false (by simp [AsmLine.inRange]; omega)

end Sys2Proof.Machine
end

section
/-! SUPPORT. What every command that answers does, read off `Effect` once: the record of its response, its permutation
count, its status, what it leaves alone, and where it takes PHASE, STR and POS. -/

namespace Sys2Proof.Machine

/-! ### Answers are effects -/

theorem execWith_eq_next {P : Permute} {i : Instr} {s t : State} :
    execWith P i s = .next t ↔ Effect P s (some i) t := by
  have hword : execWordWith P (encode i) s = execWith P i s := by
    simp only [Machine.execWordWith, decode_encode]
  rw [← hword, execWordWith_eq_next, decode_encode]

theorem exec_eq_next {i : Instr} {s t : State} : exec i s = .next t ↔ Effect Config.permute s (some i) t := by
  rw [exec_eq_execWith, execWith_eq_next]

theorem execWord_eq_next {w : Word} {s t : State} :
    execWord w s = .next t ↔ Effect Config.permute s (decode w) t := by
  rw [execWord_eq_execWordWith, execWordWith_eq_next]

/-! ### What the advance of POS does to the fields it may change -/

section AdvanceFields
variable (P : Permute) (s : State)

theorem advancePos_pos :
    (advancePos P s).pos = if s.pos + 1#8 = s.rateBytes then 0#8 else s.pos + 1#8 := by
  split
  · next h => rw [advancePos_fills P h, setPos_pos]
  · next h => rw [advancePos_within P h, setPos_pos]

theorem advancePos_S : (advancePos P s).S = if s.pos + 1#8 = s.rateBytes then P s.S else s.S := by
  split
  · next h => rw [advancePos_fills P h, setPos_S, permute_S, setPos_S]
  · next h => rw [advancePos_within P h, setPos_S]

theorem advancePos_perms :
    (advancePos P s).perms = s.perms + if s.pos + 1#8 = s.rateBytes then 1 else 0 := by
  split
  · next h => rw [advancePos_fills P h, setPos_perms, permute_perms, setPos_perms]
  · next h => rw [advancePos_within P h, setPos_perms, Nat.add_zero]

theorem advancePos_permCount :
    (advancePos P s).permCount = s.permCount + if s.pos + 1#8 = s.rateBytes then 1 else 0 := by
  split
  · next h => rw [advancePos_fills P h, setPos_permCount, permute_permCount, setPos_permCount]
  · next h => rw [advancePos_within P h, setPos_permCount, Nat.add_zero]

/-- From inside the block POS advances to inside the block. -/
theorem advancePos_pos_lt {s : State} (h : s.pos.toNat < s.rateBytes.toNat) :
    (advancePos P s).pos.toNat < s.rateBytes.toNat := by
  obtain ⟨hlt, ht⟩ | ⟨heq, ht⟩ := advancePos_cases P h <;> rw [ht, setPos_pos]
  · rwa [pos_add_one_toNat h]
  · exact Nat.zero_lt_of_lt h

end AdvanceFields

/-! ### The response and the permutation count -/

/-- A command gives one response, after which the block is ready (30_encoding.md R79). -/
theorem Effect.recorded {P : Permute} {s t : State} {c : Option Instr} (h : Effect P s c t) :
    t.rspLog = ⟨t.rspStatus, t.rspData, t.perms⟩ :: s.rspLog ∧ t.stage = .ready := by
  cases h <;> simp

/-- A command makes 0 or 1 permutations, and the count goes up by as many (00_scope.md R13). -/
theorem Effect.permutations {P : Permute} {s t : State} {c : Option Instr} (h : Effect P s c t) :
    (t.perms = 0 ∨ t.perms = 1) ∧ t.permCount = s.permCount + t.perms := by
  cases h with
  | nop | rdstat | init | initRejected | absorbRejected | finalize | finalizeRejected | squeezeRejected | illegal =>
    simp
  | absorb | squeeze =>
    simp only [respond_perms, respond_permCount, advancePos_perms, advancePos_permCount]
    split <;> simp

/-- What a command leaves alone whatever it answers: `perm_req`, and the model's list of words and count of resets. -/
theorem Effect.ports_unchanged {P : Permute} {s t : State} {c : Option Instr} (h : Effect P s c t) :
    t.permReq = s.permReq ∧ t.cmdIn = s.cmdIn ∧ t.resets = s.resets := by
  cases h <;> simp

/-- Settles O27. -/
theorem permutationCountPerCommandIsZeroOrOne : Obligations.PermutationCountPerCommandIsZeroOrOne := fun _ _ _ h =>
  (execWord_eq_next.mp h).permutations

/-! ### The status -/

/-- The two strengths INIT accepts (30_encoding.md R75). -/
theorem strengthBit_eq_some_iff {n : BitVec 16} {b : BitVec 1} :
    strengthBit n = some b ↔ (n = 128#16 ∧ b = 0#1) ∨ (n = 256#16 ∧ b = 1#1) := by
  by_cases h128 : n = 128#16
  · subst h128
    simpa [strengthBit] using eq_comm
  · by_cases h256 : n = 256#16
    · subst h256
      simpa [strengthBit] using eq_comm
    · simp [strengthBit, h128, h256]

theorem isSuccessfulInit_iff {i : Instr} :
    isSuccessfulInit i = true ↔ ∃ n b, i = .init n ∧ strengthBit n = some b := by
  cases i with
  | init n => simp [isSuccessfulInit, strengthBit_eq_some_iff, exists_or]
  | nop | absorb | finalize | squeeze | rdstat => simp [isSuccessfulInit]

/-- A command reports the status of the first check that fails (60_exceptions.md R206). -/
theorem Effect.status {P : Permute} {w : Word} {s t : State} (h : Effect P s (decode w) t) :
    t.rspStatus = expectedStatus w s := by
  unfold expectedStatus
  generalize decode w = c at h
  cases h with
  | nop | rdstat | illegal => rfl
  | init hn =>
    have hvalid := strengthBit_eq_some_iff.mp hn
    simp only [respond_rspStatus]
    rw [if_pos (hvalid.imp And.left And.left)]
  | initRejected hn =>
    have hinvalid := strengthBit_eq_none_iff.mp hn
    simp [hinvalid, Error.status]
  | absorb hp | finalize hp | squeeze hp => simp [hp]
  | absorbRejected hp | finalizeRejected hp | squeezeRejected hp => simp [hp, Error.status]

/-- Settles O24: each clause is `expectedStatus` at the command the word decodes to. -/
theorem checksAreMadeInOrder : Obligations.ChecksAreMadeInOrder := by
  intro w s t h
  have hstatus := (execWord_eq_next.mp h).status
  refine ⟨fun hw => ?_, fun n hw => ?_, ?_, fun hw => ?_, ?_, hstatus⟩ <;> rw [hstatus, expectedStatus]
  · rw [hw]
  · rw [hw]
  · rintro (⟨b, hw⟩ | hw) <;> rw [hw]
  · rw [hw]
  · rintro (hw | hw) <;> rw [hw]

/-- A SQUEEZE's data is one byte, zero-extended (30_encoding.md R79). -/
theorem outputWord_high (b : Byte) : (outputWord b).extractLsb' 8 24 = 0#24 := BitVec.extractLsb'_append_eq_left

@[simp] theorem outputWord_low (b : Byte) : (outputWord b).extractLsb' 0 8 = b := BitVec.extractLsb'_append_eq_right

/-- The data each kind of command answers with (30_encoding.md R79). -/
theorem Effect.data {P : Permute} {s t : State} {c : Option Instr} (h : Effect P s c t) :
    t.rspData = 0#32 ∨ (c = some .rdstat ∧ t.rspStatus = .ok ∧ t.rspData = s.statusWord) ∨
      (c = some .squeeze ∧ t.rspStatus = .ok ∧ ∃ b, t.rspData = outputWord b) := by
  cases h with
  | rdstat => exact .inr (.inl ⟨rfl, rfl, rfl⟩)
  | squeeze => exact .inr (.inr ⟨rfl, rfl, _, rfl⟩)
  | nop | init | initRejected | absorb | absorbRejected | finalize | finalizeRejected | squeezeRejected | illegal =>
    exact .inl (by simp)

theorem Effect.rdstat_data {P : Permute} {s t : State} (h : Effect P s (some .rdstat) t) :
    t.rspStatus = .ok ∧ t.rspData = s.statusWord := by
  cases h
  exact ⟨rfl, rfl⟩

theorem expectedStatus_ne_resourceExhaustion (w : Word) (s : State) : expectedStatus w s ≠ .resourceExhaustion := by
  unfold expectedStatus
  repeat' split
  all_goals decide

/-- Settles O26: `Effect.recorded`, and the data by `Effect.data`. -/
theorem eachCommandGivesOneResponse : Obligations.EachCommandGivesOneResponse := by
  intro w s t h
  have heff := execWord_eq_next.mp h
  obtain ⟨hlog, hready⟩ := heff.recorded
  refine ⟨hlog, hready, heff.status ▸ expectedStatus_ne_resourceExhaustion w s, fun hne => ?_, fun hsq => ?_,
    fun hrd => (hrd ▸ heff).rdstat_data, fun hsq hrd => ?_⟩
  all_goals obtain hzero | ⟨hc, hok, hdata⟩ | ⟨hc, hok, b, hdata⟩ := heff.data
  case refine_1.inl | refine_3.inl => exact hzero
  case refine_1.inr.inl | refine_1.inr.inr => exact absurd hok hne
  case refine_2.inl => rw [hzero]; rfl
  case refine_2.inr.inl => simp [hsq] at hc
  case refine_2.inr.inr => rw [hdata, outputWord_high]
  case refine_3.inr.inl => exact absurd hc hrd
  case refine_3.inr.inr => exact absurd hc hsq

/-! ### Frames -/

/-- Settles O12: by the ways NOP, RDSTAT and INIT can go. -/
theorem frameOfSessionControlCommands : Obligations.FrameOfSessionControlCommands := by
  refine ⟨fun s t h => ?_, fun s t n h => ?_⟩
  · simp only [exec_eq_next] at h
    obtain h | h := h <;> cases h <;> simp
  · cases exec_eq_next.mp h <;> simp

/-- Settles O13: by the two ways ABSORB can go, the bytes before any permutation being `absorbedBytes`. -/
theorem frameOfAbsorb : Obligations.FrameOfAbsorb := by
  intro s t b h
  cases exec_eq_next.mp h with
  | absorb hp hlt =>
    refine ⟨?_, ?_, ?_, ?_, ?_, ?_, ?_, ?_, ?_, absorbedBytes b s, fun a ha => byteAt_setByte_ne _ _ ha, ?permuted⟩
    case permuted =>
      simp only [respond_perms, respond_S, advancePos_perms, advancePos_S, setBytes_perms, beginCommand_perms,
        setBytes_S]
      split <;> simp
    all_goals simp
  | absorbRejected hp => simp

/-- Settles O14: by the two ways FINALIZE can go, the bytes the permutation receives being `paddedBytes`. -/
theorem frameOfFinalize : Obligations.FrameOfFinalize := by
  intro s t h
  cases exec_eq_next.mp h with
  | finalize hp hlt =>
    refine ⟨rfl, rfl, rfl, rfl, rfl, rfl, fun _ => ⟨rfl, paddedBytes s, rfl, fun a hpos hend => ?_⟩, by simp⟩
    exact (byteAt_setByte_ne _ _ hend).trans (byteAt_setByte_ne _ _ hpos)
  | finalizeRejected hp => simp

/-- Settles O15: by the two ways SQUEEZE can go. -/
theorem frameOfSqueeze : Obligations.FrameOfSqueeze := by
  intro s t h
  cases exec_eq_next.mp h with
  | squeeze hp hlt =>
    refine ⟨?_, ?_, ?_, ?_, ?_, ?_, ?_, ?_, ?_, ?permuted⟩
    case permuted =>
      simp only [respond_perms, respond_S, respond_permCount, advancePos_perms, advancePos_S, advancePos_permCount,
        beginCommand_perms, beginCommand_permCount, beginCommand_S]
      split <;> simp
    all_goals simp
  | squeezeRejected hp => simp

/-! ### Single commands -/

/-- Settles O11. -/
theorem execIsTheTransactionAtTheConfiguredPermutation : Obligations.ExecIsTheTransactionAtTheConfiguredPermutation :=
  exec_eq_execWith

/-- The exact word of INIT (30_encoding.md R74): its match with the strength in bits 15:0. -/
theorem encode_init (n : BitVec 16) : encode (.init n) = 0x10000000#32 ||| n.setWidth 32 := by
  have hn : n.toNat < 2 ^ 32 := n.isLt.trans (by decide)
  apply BitVec.eq_of_toNat_eq
  rw [BitVec.toNat_or, BitVec.toNat_setWidth, Nat.mod_eq_of_lt hn]
  simp only [encode, packWord, BitVec.toNat_append]
  simp

/-- Settles O4: a strength with a STR value gives a fresh session. -/
theorem initCreatesAFreshSession : Obligations.InitCreatesAFreshSession := fun _ n _ h =>
  ⟨(decode_eq_some_iff _ _).mpr (encode_init n).symm, exec_eq_next.mpr (.init (strengthBit_eq_some_iff.mpr h))⟩

/-- In IDLE with POS and STR 0 the STATUS word shows the sticky bits alone (40_session_control.md R103). -/
theorem statusWord_of_idle {s : State} (hp : s.phase = .idle) (hpos : s.pos = 0#8) (hstr : s.str = 0#1) :
    s.statusWord = 0#25 ++ BitVec.ofBool s.errIllegal ++ BitVec.ofBool s.errProto ++
      BitVec.ofBool s.errUnsup ++ 0#4 := by
  rw [State.statusWord, rateBytes_idle hp, hpos, hstr, hp]
  cases s.errIllegal <;> cases s.errProto <;> cases s.errUnsup <;> rfl

/-- Settles O6. -/
theorem rdstatReturnsTheStatusWord : Obligations.RdstatReturnsTheStatusWord := by
  refine ⟨decode_encode .rdstat, fun s => exec_eq_next.mpr .rdstat, fun s hp hs => ?_⟩
  simp only [betweenCommands, hp, if_true, decide_eq_true_eq] at hs
  exact statusWord_of_idle hp hs.1 hs.2

/-- Bit `i` of the STATUS word is a bit of the field it lies in, the fields from the lowest up (10_state.md R31). -/
theorem statusWord_getLsbD (s : State) (i : Nat) :
    s.statusWord.getLsbD i =
      if i < 2 then s.phase.code.getLsbD i else if i - 2 < 1 then s.str.getLsbD (i - 2)
      else if i - 3 < 1 then false else if i - 4 < 1 then (BitVec.ofBool s.errUnsup).getLsbD (i - 4)
      else if i - 5 < 1 then (BitVec.ofBool s.errProto).getLsbD (i - 5)
      else if i - 6 < 1 then (BitVec.ofBool s.errIllegal).getLsbD (i - 6)
      else if i - 7 < 1 then false else if i - 8 < 8 then s.pos.getLsbD (i - 8)
      else if i - 16 < 8 then s.rateBytes.getLsbD (i - 16) else false := by
  rw [State.statusWord]
  iterate 9 rw [BitVec.getLsbD_append]
  simp [Nat.sub_sub]

/-- Settles O2: a bit by `statusWord_getLsbD`, a wider field by taking off the fields below it. -/
theorem statusWordShowsEachField : Obligations.StatusWordShowsEachField := by
  intro s
  have hcode : s.phase.code =
      if s.phase = .idle then 0b00#2 else if s.phase = .absorbing then 0b01#2 else 0b10#2 := by
    cases s.phase <;> rfl
  rw [← hcode]
  iterate 5 rw [statusWord_getLsbD]
  refine ⟨?_, ?_, by simp, by simp, by simp, by simp, by simp, ?_, ?_, ?_⟩ <;> rw [State.statusWord]
  · exact BitVec.extractLsb'_append_eq_right
  · rw [BitVec.extractLsb'_append_eq_of_le (by decide)]
    exact BitVec.extractLsb'_append_eq_right
  · iterate 7 rw [BitVec.extractLsb'_append_eq_of_le (by decide)]
    exact BitVec.extractLsb'_append_eq_right
  · iterate 8 rw [BitVec.extractLsb'_append_eq_of_le (by decide)]
    exact BitVec.extractLsb'_append_eq_right
  · iterate 9 rw [BitVec.extractLsb'_append_eq_of_le (by decide)]
    rfl

end Sys2Proof.Machine
end

section
/-! SUPPORT. Proofs of the invariants of 10_state.md R30, first between commands and then at a step, and of what reset
leaves (R32). -/

namespace Sys2Proof.Machine

/-! ### Between commands -/

/-- Items 2 and 3 of 10_state.md R30. -/
theorem betweenCommands_iff {s : State} :
    betweenCommands s = true ↔
      (s.phase = .idle → s.pos = 0#8 ∧ s.str = 0#1) ∧ (s.phase ≠ .idle → s.pos.toNat < s.rateBytes.toNat) := by
  by_cases hp : s.phase = .idle <;> simp [betweenCommands, hp]

/-- Two states in the same place: PHASE, STR and POS agree. -/
structure SamePlace (s t : State) : Prop where
  phase : t.phase = s.phase
  str : t.str = s.str
  pos : t.pos = s.pos

namespace SamePlace
variable {s t : State}

theorem refl (s : State) : SamePlace s s := ⟨rfl, rfl, rfl⟩

theorem rateBytes (h : SamePlace s t) : t.rateBytes = s.rateBytes := rateBytes_congr h.phase h.str

theorem posOffset (h : SamePlace s t) : t.posOffset = s.posOffset := congrArg BitVec.toNat h.pos

theorem betweenCommands (h : SamePlace s t) : Machine.betweenCommands t = Machine.betweenCommands s := by
  rw [Machine.betweenCommands, h.phase, h.pos, h.str, h.rateBytes, Machine.betweenCommands]

theorem raise (e : Error) (h : SamePlace s t) : SamePlace s (Machine.raise e (beginCommand t)) :=
  ⟨by simp [h.phase], by simp [h.str], by simp [h.pos]⟩

end SamePlace

theorem betweenCommands_of_pos_lt {s : State} (hp : s.phase ≠ .idle) (h : s.pos.toNat < s.rateBytes.toNat) :
    betweenCommands s = true :=
  betweenCommands_iff.mpr ⟨fun hidle => absurd hidle hp, fun _ => h⟩

theorem betweenCommands_of_pos_zero {s : State} (hp : s.phase ≠ .idle) (h : s.pos = 0#8) :
    betweenCommands s = true :=
  betweenCommands_of_pos_lt hp (by rw [h]; exact rateBytes_toNat_pos hp)

/-- A command keeps the invariants (10_state.md R30). -/
theorem Effect.betweenCommands {P : Permute} {s t : State} {c : Option Instr} (h : Effect P s c t)
    (hs : Machine.betweenCommands s = true) : Machine.betweenCommands t = true := by
  cases h with
  | nop | rdstat => exact hs
  | initRejected | absorbRejected | finalizeRejected | squeezeRejected | illegal =>
    exact ((SamePlace.refl s).raise _).betweenCommands.trans hs
  | init hn => exact betweenCommands_of_pos_zero (by simp) rfl
  | finalize hp hlt => exact betweenCommands_of_pos_zero (by simp) rfl
  | absorb hp hlt =>
    refine betweenCommands_of_pos_lt (by simp [hp]) ?_
    rw [rateBytes_congr (s := s) (by simp) (by simp)]
    exact advancePos_pos_lt P hlt
  | squeeze hp hlt =>
    refine betweenCommands_of_pos_lt (by simp [hp]) ?_
    rw [rateBytes_congr (s := s) (by simp) (by simp)]
    exact advancePos_pos_lt P hlt

/-- From a state between commands every command has an effect. -/
theorem exists_effect_of_betweenCommands (P : Permute) {s : State} (hs : betweenCommands s = true)
    (c : Option Instr) : ∃ t, Effect P s c t := exists_effect P (betweenCommands_iff.mp hs).2 c

/-- STR changes at a successful INIT only (10_state.md R30). -/
theorem Effect.str_eq_or_init {P : Permute} {s t : State} {c : Option Instr} (h : Effect P s c t) :
    t.str = s.str ∨ ∃ i, c = some i ∧ isSuccessfulInit i = true := by
  cases h with
  | init hn => exact .inr ⟨_, rfl, isSuccessfulInit_iff.mpr ⟨_, _, rfl, hn⟩⟩
  | nop | rdstat | initRejected | absorb | absorbRejected | finalize | finalizeRejected | squeeze | squeezeRejected |
      illegal =>
    exact .inl (by simp)

/-- PHASE changes at a successful INIT, to ABSORBING, and at a successful FINALIZE, from ABSORBING to SQUEEZING, only
(10_state.md section 6). -/
theorem Effect.phase_cases {P : Permute} {s t : State} {c : Option Instr} (h : Effect P s c t) :
    t.phase = s.phase ∨ (∃ i, c = some i ∧ isSuccessfulInit i = true ∧ t.phase = .absorbing) ∨
      (c = some .finalize ∧ t.rspStatus = .ok ∧ s.phase = .absorbing ∧ t.phase = .squeezing) := by
  cases h with
  | init hn => exact .inr (.inl ⟨_, rfl, isSuccessfulInit_iff.mpr ⟨_, _, rfl, hn⟩, rfl⟩)
  | finalize hp => exact .inr (.inr ⟨rfl, rfl, hp, rfl⟩)
  | nop | rdstat | initRejected | absorb | absorbRejected | finalizeRejected | squeeze | squeezeRejected | illegal =>
    exact .inl (by simp)

/-- Settles O29: an effect exists, and each clause is a lemma about it. -/
theorem commandsKeepTheInvariants : Obligations.CommandsKeepTheInvariants := by
  intro w s hs
  obtain ⟨t, h⟩ := exists_effect_of_betweenCommands Config.permute hs (decode w)
  exact ⟨t, execWord_eq_next.mpr h, h.betweenCommands hs, h.str_eq_or_init.resolve_left, h.phase_cases.resolve_left⟩

/-! ### The step -/

theorem step_of_ready {s : State} (h : s.stage = .ready) : step s = acceptAndExecute s := by
  rw [step, h]

theorem step_of_not_ready {s : State} (h : s.stage ≠ .ready) : step s = completeInFlight s := by
  unfold step
  split
  · contradiction
  · rfl

theorem acceptAndExecute_of_nil {s : State} (h : s.cmdIn = []) : acceptAndExecute s = .next s := by
  rw [acceptAndExecute, fetchCommand, h]

theorem acceptAndExecute_of_cons {s : State} {w : Word} {rest : List Word} (h : s.cmdIn = w :: rest) :
    acceptAndExecute s = execWord w { s with cmdIn := rest } := by
  rw [acceptAndExecute, fetchCommand, h]

/-- A step of a ready block executes the presented word. -/
theorem step_of_cons {s : State} {w : Word} {rest : List Word} (hs : s.stage = .ready) (h : s.cmdIn = w :: rest) :
    step s = execWord w { s with cmdIn := rest } := (step_of_ready hs).trans (acceptAndExecute_of_cons h)

/-- Settles O22: the step is `execWord`, by the two values of `decode`. -/
theorem stepRunsTheDecodedCommand : Obligations.StepRunsTheDecodedCommand := by
  intro s w rest hs hcmd
  rw [step_of_cons hs hcmd]
  refine ⟨fun i hw => by rw [execWord, hw], fun hw => ?_⟩
  rw [execWord_of_decode_none _ hw, raise_beginCommand]
  simp [Error.status]

/-! ### A command in flight -/

section FinishCommand
variable (k : Resume) (s : State)

@[simp] theorem finishCommand_stage : (finishCommand k s).stage = .responding := by cases k <;> rfl
@[simp] theorem finishCommand_permReq : (finishCommand k s).permReq = s.permReq := by cases k <;> rfl
@[simp] theorem finishCommand_permCount : (finishCommand k s).permCount = s.permCount := by cases k <;> rfl
@[simp] theorem finishCommand_cmdIn : (finishCommand k s).cmdIn = s.cmdIn := by cases k <;> rfl
@[simp] theorem finishCommand_pos : (finishCommand k s).pos = 0#8 := by cases k <;> rfl

/-- A command whose phase allows it ends in a session. -/
theorem finishCommand_phase_ne_idle {k : Resume} {s : State} (h : resumeAllowed k s.phase = true) :
    (finishCommand k s).phase ≠ .idle := by
  cases k <;> simp [resumeAllowed] at h <;> simp [finishCommand, h]

theorem finishCommand_betweenCommands {k : Resume} {s : State} (h : resumeAllowed k s.phase = true) :
    betweenCommands (finishCommand k s) = true :=
  betweenCommands_of_pos_zero (finishCommand_phase_ne_idle h) (finishCommand_pos k s)

end FinishCommand

section CompleteInFlight
variable {s : State}

theorem completeInFlight_of_ready (h : s.stage = .ready) : completeInFlight s = .next s := by
  rw [completeInFlight, h]

theorem completeInFlight_of_executing {w : Word} (h : s.stage = .executing w) :
    completeInFlight s = execWord w s := by
  rw [completeInFlight, h]

theorem completeInFlight_of_permuting {k : Resume} (h : s.stage = .permuting k) :
    completeInFlight s = .next (handOver (finishCommand k (loadPermuted (Config.permute s.S) s))) := by
  rw [completeInFlight, h]

theorem completeInFlight_of_finishing {k : Resume} (h : s.stage = .finishing k) :
    completeInFlight s = .next (handOver (finishCommand k s)) := by
  rw [completeInFlight, h]

theorem completeInFlight_of_responding (h : s.stage = .responding) :
    completeInFlight s = .next (handOver s) := by
  rw [completeInFlight, h]

/-- Completing the command in flight leaves a ready block and the host's list (log 6). -/
theorem completeInFlight_keeps {t : State} (h : completeInFlight s = .next t) :
    t.stage = .ready ∧ t.cmdIn = s.cmdIn := by
  cases hs : s.stage with
  | ready => cases (completeInFlight_of_ready hs).symm.trans h; exact ⟨hs, rfl⟩
  | executing w =>
    have heff := execWord_eq_next.mp ((completeInFlight_of_executing hs).symm.trans h)
    exact ⟨heff.recorded.2, heff.ports_unchanged.2.1⟩
  | permuting k => cases (completeInFlight_of_permuting hs).symm.trans h; simp
  | finishing k => cases (completeInFlight_of_finishing hs).symm.trans h; simp
  | responding => cases (completeInFlight_of_responding hs).symm.trans h; simp

end CompleteInFlight

/-- Settles O23. -/
theorem stepWithoutAnAcceptedCommand : Obligations.StepWithoutAnAcceptedCommand :=
  ⟨fun _ hs hcmd => (step_of_ready hs).trans (acceptAndExecute_of_nil hcmd),
    fun _ _ hs h => completeInFlight_keeps ((step_of_not_ready hs).symm.trans h)⟩

/-! ### The invariant, stage by stage -/

section Inv
variable {s : State}

theorem inv_of_ready (h : s.stage = .ready) : s.inv = true ↔ betweenCommands s = true ∧ s.permReq = false := by
  simp [State.inv, h]

theorem inv_of_executing {w : Word} (h : s.stage = .executing w) :
    s.inv = true ↔ betweenCommands s = true ∧ s.permReq = false := by
  simp [State.inv, h]

theorem inv_of_permuting {k : Resume} (h : s.stage = .permuting k) :
    s.inv = true ↔ resumeAllowed k s.phase = true := by
  simp [State.inv, h]

theorem inv_of_finishing {k : Resume} (h : s.stage = .finishing k) :
    s.inv = true ↔ resumeAllowed k s.phase = true ∧ s.permReq = false := by
  simp [State.inv, h]

theorem inv_of_responding (h : s.stage = .responding) :
    s.inv = true ↔ betweenCommands s = true ∧ s.permReq = false := by
  simp [State.inv, h]

end Inv

/-- A word answers from a state between commands, and leaves a ready block that meets the invariant. -/
theorem execWord_keeps_inv (w : Word) {s : State} (hs : betweenCommands s = true) (hreq : s.permReq = false) :
    ∃ t, execWord w s = .next t ∧ t.inv = true := by
  obtain ⟨t, h⟩ := exists_effect_of_betweenCommands Config.permute hs (decode w)
  refine ⟨t, execWord_eq_next.mpr h, (inv_of_ready h.recorded.2).mpr ⟨h.betweenCommands hs, ?_⟩⟩
  rw [h.ports_unchanged.1, hreq]

/-- A finished command, handed over, leaves a state that meets the invariant. -/
theorem inv_handOver_finishCommand {k : Resume} {s : State} (h : resumeAllowed k s.phase = true)
    (hreq : s.permReq = false) : (handOver (finishCommand k s)).inv = true :=
  (inv_of_ready (handOver_stage _)).mpr
    ⟨finishCommand_betweenCommands h, by rw [handOver_permReq, finishCommand_permReq, hreq]⟩

/-- Settles O30: by the stages of the block. -/
theorem stepKeepsTheInvariant : Obligations.StepKeepsTheInvariant := by
  intro s hs
  cases hstage : s.stage with
  | ready =>
    obtain ⟨hbetween, hreq⟩ := (inv_of_ready hstage).mp hs
    cases hcmd : s.cmdIn with
    | nil => exact ⟨s, (step_of_ready hstage).trans (acceptAndExecute_of_nil hcmd), hs⟩
    | cons w rest =>
      rw [step_of_cons hstage hcmd]
      exact execWord_keeps_inv w hbetween hreq
  | executing w =>
    obtain ⟨hbetween, hreq⟩ := (inv_of_executing hstage).mp hs
    rw [step_of_not_ready (by simp [hstage]), completeInFlight_of_executing hstage]
    exact execWord_keeps_inv w hbetween hreq
  | permuting k =>
    rw [step_of_not_ready (by simp [hstage]), completeInFlight_of_permuting hstage]
    exact ⟨_, rfl, inv_handOver_finishCommand ((inv_of_permuting hstage).mp hs) rfl⟩
  | finishing k =>
    obtain ⟨hallowed, hreq⟩ := (inv_of_finishing hstage).mp hs
    rw [step_of_not_ready (by simp [hstage]), completeInFlight_of_finishing hstage]
    exact ⟨_, rfl, inv_handOver_finishCommand hallowed hreq⟩
  | responding =>
    rw [step_of_not_ready (by simp [hstage]), completeInFlight_of_responding hstage]
    exact ⟨_, rfl, (inv_of_ready rfl).mpr ((inv_of_responding hstage).mp hs)⟩

/-! ### Reset -/

/-- Settles O31. -/
theorem resetMeetsTheInvariant : Obligations.ResetMeetsTheInvariant := ⟨rfl, rfl⟩

/-- Settles O33: the values of `State.reset`, and the registers derived from them. -/
theorem resetLeavesTheBlockIdle : Obligations.ResetLeavesTheBlockIdle := by
  refine ⟨rfl, rfl, rateBytes_idle rfl, rfl, rfl, rfl, rfl, ?_, ?_, ?_, rfl, ?_⟩ <;> decide

theorem tick_of_reset {e : Edge} (s : State) (h : e.rstN = false) : tick e s = .next (resetEdge s) := by
  rw [tick, if_pos h]

/-- Settles O34: such an edge is `resetEdge`. -/
theorem resetEdgeAbandonsTheCommandInFlight : Obligations.ResetEdgeAbandonsTheCommandInFlight := fun _ s h =>
  ⟨by rw [cmdReady, h, Bool.false_and], by rw [accepts, cmdReady, h, Bool.false_and, Bool.and_false],
    resetEdge s, tick_of_reset s h, rfl, rfl, rfl, rfl, rfl, rfl, rfl, rfl, rfl, rfl, rfl, rfl, rfl⟩

end Sys2Proof.Machine
end

section
/-! SUPPORT. Proofs about the engine port (10_state.md R35) and the lanes (20_memory.md R55): each bit of either is a
bit of one byte. -/

namespace Sys2Proof.Machine

/-! ### The port -/

/-- Bit `k` of the port is bit `k mod 8` of byte `k div 8`. -/
theorem packState_getLsbD (S : StateBytes) {k : Nat} (hk : k < 1600) :
    (packState S).getLsbD k = (byteAt S (k / 8)).getLsbD (k % 8) := by
  have hbyte : k / 8 < 200 := by omega
  rw [packState, BitVec.getLsbD_ofFnLE, dif_pos hk, byteAt_of_lt S hbyte]

theorem byteAt_unpackState (x : BitVec 1600) {i : Nat} (hi : i < 200) :
    byteAt (unpackState x) i = x.extractLsb' (8 * i) 8 := by
  simp [byteAt_of_lt _ hi, unpackState]

theorem packState_byte_bit (S : StateBytes) (i j : Nat) (hi : i < 200) (hj : j < 8) :
    (packState S).getLsbD (8 * i + j) = (byteAt S i).getLsbD j := by
  have hdiv : (8 * i + j) / 8 = i := by omega
  have hmod : (8 * i + j) % 8 = j := by omega
  rw [packState_getLsbD S (by omega), hdiv, hmod]

theorem unpackState_packState (S : StateBytes) : unpackState (packState S) = S := by
  refine bytes_ext fun i hi => BitVec.eq_of_getLsbD_eq fun j hj => ?_
  rw [byteAt_unpackState _ hi, BitVec.getLsbD_extractLsb', packState_byte_bit S i j hi hj]
  simp [hj]

theorem packState_unpackState (x : BitVec 1600) : packState (unpackState x) = x := by
  refine BitVec.eq_of_getLsbD_eq fun k hk => ?_
  have hbyte : k / 8 < 200 := by omega
  have hbit : k % 8 < 8 := by omega
  rw [packState_getLsbD _ hk, byteAt_unpackState x hbyte, BitVec.getLsbD_extractLsb', Nat.div_add_mod]
  simp [hbit]

/-- Settles O50. -/
theorem enginePortCarriesEveryByte : Obligations.EnginePortCarriesEveryByte :=
  ⟨packState_byte_bit, unpackState_packState, packState_unpackState⟩

/-! ### The lanes -/

/-- Bit `z` of lane A[x][y] is a bit of one of the lane's eight bytes. -/
theorem lane_getLsbD (S : StateBytes) (x y : Fin 5) {z : Nat} (hz : z < 64) :
    (lane S x y).getLsbD z = (byteAt S (8 * (5 * y.val + x.val) + z / 8)).getLsbD (z % 8) := by
  rw [lane, BitVec.getLsbD_ofFnLE, dif_pos hz]

/-- Byte `i` lies in the lane R55 names, little-endian. -/
theorem lane_byte (S : StateBytes) (i : Nat) (h : i < 200) :
    (lane S ⟨i / 8 % 5, by omega⟩ ⟨i / 8 / 5, by omega⟩).extractLsb' (8 * (i % 8)) 8 = byteAt S i := by
  refine BitVec.eq_of_getLsbD_eq fun j hj => ?_
  have hoffset : 8 * (5 * (i / 8 / 5) + i / 8 % 5) + (8 * (i % 8) + j) / 8 = i := by omega
  have hbit : (8 * (i % 8) + j) % 8 = j := by omega
  rw [BitVec.getLsbD_extractLsb', lane_getLsbD S _ _ (by omega), hoffset, hbit]
  simp [hj]

theorem ofLanes_lane (S : StateBytes) : ofLanes (lane S) = S := by
  refine bytes_ext fun i hi => ?_
  rw [← lane_byte S i hi]
  simp [byteAt_of_lt _ hi, ofLanes]

/-- The port numbers the lanes' bits in the order of the lanes. -/
theorem packState_lane_bit (S : StateBytes) (x y : Fin 5) (z : Nat) (hz : z < 64) :
    (packState S).getLsbD (64 * (5 * y.val + x.val) + z) = (lane S x y).getLsbD z := by
  have hoffset : (64 * (5 * y.val + x.val) + z) / 8 = 8 * (5 * y.val + x.val) + z / 8 := by omega
  have hbit : (64 * (5 * y.val + x.val) + z) % 8 = z % 8 := by omega
  rw [packState_getLsbD S (by omega), lane_getLsbD S x y hz, hoffset, hbit]

/-- Settles O51. -/
theorem lanesHoldTheBytesLittleEndian : Obligations.LanesHoldTheBytesLittleEndian :=
  ⟨lane_byte, ofLanes_lane, packState_lane_bit⟩

end Sys2Proof.Machine
end

section
/-! SUPPORT. Proofs about the block at its ports (60_exceptions.md R211, 70_reset_and_hazards.md R235 to R237): what a
clock edge does in each stage, and how a command that starts there comes to its effect. -/

namespace Sys2Proof.Machine

/-! ### One edge out of reset, stage by stage -/

section Tick
variable {e : Edge} {s : State}

theorem tick_of_ready (hr : e.rstN = true) (hs : s.stage = .ready) :
    tick e s =
      if e.cmdValid then
        if e.advance then startWord e.cmdWord s else .next { s with stage := .executing e.cmdWord }
      else .next s := by
  simp [tick, hr, hs]

theorem tick_of_executing {w : Word} (hr : e.rstN = true) (hs : s.stage = .executing w) :
    tick e s = if e.advance then startWord w s else .next s := by
  simp [tick, hr, hs]

theorem tick_of_permuting {k : Resume} (hr : e.rstN = true) (hs : s.stage = .permuting k) :
    tick e s =
      if e.permDone then
        if e.advance then .next (finishCommand k (loadPermuted (unpackState e.permStateI) s))
        else .next { loadPermuted (unpackState e.permStateI) s with stage := .finishing k }
      else .next { s with permReq := false } := by
  simp [tick, hr, hs]

theorem tick_of_finishing {k : Resume} (hr : e.rstN = true) (hs : s.stage = .finishing k) :
    tick e s = if e.advance then .next (finishCommand k s) else .next s := by
  simp [tick, hr, hs]

theorem tick_of_responding (hr : e.rstN = true) (hs : s.stage = .responding) :
    tick e s = if e.rspReady then .next (handOver s) else .next s := by
  simp [tick, hr, hs]

theorem accepts_of_ready (hr : e.rstN = true) (hs : s.stage = .ready) : accepts e s = e.cmdValid := by
  simp [accepts, cmdReady, State.busy, hr, hs]

theorem accepts_of_not_ready (hs : s.stage ≠ .ready) : accepts e s = false := by
  simp [accepts, cmdReady, State.busy, hs]

end Tick

/-- Settles O52: the edges of a ready block and of one that presents its response. -/
theorem portHandshake : Obligations.PortHandshake := by
  intro e s hr
  refine ⟨by simp [accepts, cmdReady, hr], fun hs hv => ?_, fun hv hrr => ?_, fun hv hrr => ?_⟩
  · rw [tick_of_ready hr hs, hv]
    rfl
  · rw [tick_of_responding hr (of_decide_eq_true hv), hrr]
    rfl
  · rw [tick_of_responding hr (of_decide_eq_true hv), hrr]
    rfl

/-! ### The start of a command -/

/-- Where a command started from `s` stands, its whole effect being `t`: it made no permutation and presents its
response, or it waits for its one permutation (60_exceptions.md R211). -/
inductive Started (s t u : State) : Prop where
  | responding (hstage : u.stage = .responding) (hreq : u.permReq = false) (hperms : t.perms = 0)
      (hcount : u.permCount = s.permCount) (hdone : handOver u = t)
  | waiting {k : Resume} (hstage : u.stage = .permuting k) (hallowed : resumeAllowed k u.phase = true)
      (hreq : u.permReq = true) (hperms : t.perms = 1) (hcount : u.permCount = s.permCount + 1)
      (hdone : handOver (finishCommand k (loadPermuted (Config.permute u.S) u)) = t)

theorem startAdvance_within (k : Resume) (d : Word) {s : State} (h : s.pos + 1#8 ≠ s.rateBytes) :
    startAdvance k d s = present .ok d (setPos (s.pos + 1#8) s) := by
  unfold startAdvance
  exact if_neg h

theorem startAdvance_fills (k : Resume) (d : Word) {s : State} (h : s.pos + 1#8 = s.rateBytes) :
    startAdvance k d s = requestPermutation k (setPos (s.pos + 1#8) s) := by
  unfold startAdvance
  exact if_pos h

/-- A command that started its advance of POS comes to `advancePos`. -/
theorem started_startAdvance {k : Resume} {d : Word} {s₀ s : State} (hallowed : resumeAllowed k s.phase = true)
    (hfinish : ∀ u, finishCommand k u = present .ok d (setPos 0#8 u)) (hreq : s.permReq = false)
    (hperms : s.perms = 0) (hcount : s.permCount = s₀.permCount) :
    Started s₀ (respond .ok d (advancePos Config.permute s)) (startAdvance k d s) := by
  by_cases h : s.pos + 1#8 = s.rateBytes
  · rw [startAdvance_fills k d h, advancePos_fills _ h]
    refine .waiting rfl hallowed rfl (by simp [hperms]) (by simp [hcount]) ?_
    rw [hfinish]
    simp [respond, handOver, present, setPos, permute, countPermutation, setBytes, loadPermuted, requestPermutation,
      hreq]
  · rw [startAdvance_within k d h, advancePos_within _ h]
    exact .responding rfl hreq hperms hcount rfl

section StartCommand
variable {s : State} (hlt : s.pos.toNat < s.rateBytes.toNat)
include hlt

theorem startCommand_absorb (b : Byte) (hp : s.phase = .absorbing) :
    startCommand (.absorb b) s = .next (startAdvance .absorb 0#32 (setBytes (absorbedBytes b s) s)) := by
  have hxor := xorByte_of_lt (i := s.posOffset) (b := b) hlt
  simp only [startCommand, hp, if_true, hxor, andThen_next, absorbedBytes]

theorem startCommand_finalize (hp : s.phase = .absorbing) :
    startCommand .finalize s = .next (requestPermutation .finalize (setBytes (paddedBytes s) s)) := by
  have hpad : padBlock s = .next (setBytes (paddedBytes s) s) := padBlock_of_lt hlt
  simp only [startCommand, hp, if_true, hpad, andThen_next]

theorem startCommand_squeeze (hp : s.phase = .squeezing) :
    startCommand .squeeze s = .next (startAdvance (.squeeze (byteAt s.S s.posOffset))
      (outputWord (byteAt s.S s.posOffset)) s) := by
  have hcopy : copyByte s.posOffset s = some (byteAt s.S s.posOffset) := copyByte_eq_some.mpr ⟨hlt, rfl⟩
  simp only [startCommand, hp, if_true, hcopy]

end StartCommand

/-- A word that has an effect starts, and comes to that effect. -/
theorem startWord_of_effect {w : Word} {s t : State} (hreq : s.permReq = false)
    (h : Effect Config.permute s (decode w) t) : ∃ u, startWord w s = .next u ∧ Started s t u := by
  unfold startWord
  generalize decode w = c at h
  cases h with
  | nop => exact ⟨_, rfl, .responding rfl hreq rfl rfl rfl⟩
  | rdstat => exact ⟨_, rfl, .responding rfl hreq rfl rfl rfl⟩
  | init hn =>
    refine ⟨present .ok 0#32 (newSession _ (beginCommand s)), ?_, .responding rfl hreq rfl rfl rfl⟩
    simp only [startCommand, hn]
  | initRejected hn =>
    refine ⟨presentError .unsupportedStrength (beginCommand s), ?_, .responding rfl hreq rfl rfl rfl⟩
    simp only [startCommand, hn]
  | @absorb b hp hlt =>
    have hallowed : resumeAllowed .absorb s.phase = true := by simp [resumeAllowed, hp]
    exact ⟨_, startCommand_absorb (s := beginCommand s) hlt b hp,
      started_startAdvance hallowed (fun _ => rfl) hreq rfl rfl⟩
  | finalize hp hlt =>
    have hallowed : resumeAllowed .finalize s.phase = true := by simp [resumeAllowed, hp]
    refine ⟨requestPermutation .finalize (setBytes (paddedBytes s) (beginCommand s)),
      startCommand_finalize (s := beginCommand s) hlt hp, .waiting rfl hallowed rfl rfl rfl ?_⟩
    simp [respond, handOver, present, enterSqueezing, permute, countPermutation, setBytes, loadPermuted,
      requestPermutation, finishCommand, beginCommand, hreq]
  | squeeze hp hlt =>
    have hallowed : resumeAllowed (.squeeze (byteAt s.S s.posOffset)) s.phase = true := by simp [resumeAllowed, hp]
    exact ⟨_, startCommand_squeeze (s := beginCommand s) hlt hp,
      started_startAdvance hallowed (fun _ => rfl) hreq rfl rfl⟩
  | absorbRejected hp | finalizeRejected hp | squeezeRejected hp =>
    refine ⟨presentError .protocolViolation (beginCommand s), ?_, .responding rfl hreq rfl rfl rfl⟩
    simp only [startCommand, beginCommand_phase, hp, if_false]
  | illegal => exact ⟨_, rfl, .responding rfl hreq rfl rfl rfl⟩

/-- Completing a started command gives its effect. -/
theorem Started.completeInFlight {s t u : State} (h : Started s t u) : Machine.completeInFlight u = .next t := by
  cases h with
  | responding hstage _ _ _ hdone => rw [completeInFlight_of_responding hstage, hdone]
  | waiting hstage _ _ _ _ hdone => rw [completeInFlight_of_permuting hstage, hdone]

theorem Started.inv {s t u : State} (h : Started s t u) (ht : betweenCommands t = true) : u.inv = true := by
  cases h with
  | responding hstage hreq _ _ hdone =>
    subst hdone
    exact (inv_of_responding hstage).mpr ⟨ht, hreq⟩
  | waiting hstage hallowed => exact (inv_of_permuting hstage).mpr hallowed

/-- From a state between commands every word starts, and comes to its effect. -/
theorem exists_started (w : Word) {s : State} (hs : betweenCommands s = true) (hreq : s.permReq = false) :
    ∃ t u, execWord w s = .next t ∧ betweenCommands t = true ∧ startWord w s = .next u ∧ Started s t u := by
  obtain ⟨t, h⟩ := exists_effect_of_betweenCommands Config.permute hs (decode w)
  obtain ⟨u, hu, hstarted⟩ := startWord_of_effect hreq h
  exact ⟨t, u, execWord_eq_next.mpr h, h.betweenCommands hs, hu, hstarted⟩

/-! ### The invariant at every edge -/

theorem startWord_keeps_inv (w : Word) {s : State} (hs : betweenCommands s = true) (hreq : s.permReq = false) :
    ∃ u, startWord w s = .next u ∧ u.inv = true := by
  obtain ⟨t, u, -, ht, hu, hstarted⟩ := exists_started w hs hreq
  exact ⟨u, hu, hstarted.inv ht⟩

theorem inv_finishCommand {k : Resume} {s : State} (h : resumeAllowed k s.phase = true) (hreq : s.permReq = false) :
    (finishCommand k s).inv = true :=
  (inv_of_responding (finishCommand_stage k s)).mpr
    ⟨finishCommand_betweenCommands h, by rw [finishCommand_permReq, hreq]⟩

/-- Settles O32: a reset edge leaves the reset values; out of reset, by the stages of the block and its pace. -/
theorem clockEdgesKeepTheInvariant : Obligations.ClockEdgesKeepTheInvariant := by
  intro e s hs
  cases hr : e.rstN with
  | false => exact ⟨_, tick_of_reset s hr, rfl⟩
  | true =>
    cases hstage : s.stage with
    | ready =>
      obtain ⟨hbetween, hreq⟩ := (inv_of_ready hstage).mp hs
      rw [tick_of_ready hr hstage]
      split_ifs
      · exact startWord_keeps_inv _ hbetween hreq
      · exact ⟨_, rfl, (inv_of_executing rfl).mpr ⟨hbetween, hreq⟩⟩
      · exact ⟨s, rfl, hs⟩
    | executing w =>
      obtain ⟨hbetween, hreq⟩ := (inv_of_executing hstage).mp hs
      rw [tick_of_executing hr hstage]
      split_ifs
      · exact startWord_keeps_inv w hbetween hreq
      · exact ⟨s, rfl, hs⟩
    | permuting k =>
      have hallowed := (inv_of_permuting hstage).mp hs
      rw [tick_of_permuting hr hstage]
      generalize unpackState e.permStateI = S'
      split_ifs
      · exact ⟨_, rfl, inv_finishCommand (s := loadPermuted S' s) hallowed rfl⟩
      · exact ⟨_, rfl, (inv_of_finishing (s := { loadPermuted S' s with stage := _ }) rfl).mpr ⟨hallowed, rfl⟩⟩
      · exact ⟨_, rfl, (inv_of_permuting (s := { s with permReq := false }) hstage).mpr hallowed⟩
    | finishing k =>
      obtain ⟨hallowed, hreq⟩ := (inv_of_finishing hstage).mp hs
      rw [tick_of_finishing hr hstage]
      split_ifs
      · exact ⟨_, rfl, inv_finishCommand hallowed hreq⟩
      · exact ⟨s, rfl, hs⟩
    | responding =>
      rw [tick_of_responding hr hstage]
      split_ifs
      · exact ⟨_, rfl, (inv_of_ready rfl).mpr ((inv_of_responding hstage).mp hs)⟩
      · exact ⟨s, rfl, hs⟩

/-! ### The permutation request -/

/-- From `s` to `t` a request is one pulse, raised by a command that starts, and one permutation event
(60_exceptions.md R211). -/
def RequestsOnce (s t : State) : Prop :=
  (t.permReq = true → s.permReq = false ∧ (∃ k, t.stage = .permuting k) ∧
    (s.stage = .ready ∨ ∃ w, s.stage = .executing w) ∧ t.permCount = s.permCount + 1) ∧
  (t.permReq = false → t.permCount = s.permCount)

theorem requestsOnce_of_not_requested {s t : State} (hreq : t.permReq = false) (hcount : t.permCount = s.permCount) :
    RequestsOnce s t := ⟨fun h => by simp [hreq] at h, fun _ => hcount⟩

theorem Started.requestsOnce {s t u : State} (h : Started s t u) (hs : s.permReq = false)
    (hstage : s.stage = .ready ∨ ∃ w, s.stage = .executing w) : RequestsOnce s u := by
  cases h with
  | responding _ hreq _ hcount => exact requestsOnce_of_not_requested hreq hcount
  | waiting hwait _ hreq _ hcount => exact ⟨fun _ => ⟨hs, ⟨_, hwait⟩, hstage, hcount⟩, fun h => by simp [hreq] at h⟩

theorem startWord_requestsOnce {w : Word} {s u : State} (hbetween : betweenCommands s = true)
    (hreq : s.permReq = false) (hstage : s.stage = .ready ∨ ∃ w, s.stage = .executing w)
    (hu : startWord w s = .next u) : RequestsOnce s u := by
  obtain ⟨t, u', -, -, hu', hstarted⟩ := exists_started w hbetween hreq
  cases hu.symm.trans hu'
  exact hstarted.requestsOnce hreq hstage

/-- Settles O53: only a start requests; the stages in which a request can be up lower it at the next edge. -/
theorem permutationRequestIsOnePulsePerEvent : Obligations.PermutationRequestIsOnePulsePerEvent := by
  intro e s t hs ht
  change RequestsOnce s t
  cases hr : e.rstN with
  | false =>
    cases (tick_of_reset s hr).symm.trans ht
    exact requestsOnce_of_not_requested rfl rfl
  | true =>
    cases hstage : s.stage with
    | ready =>
      obtain ⟨hbetween, hreq⟩ := (inv_of_ready hstage).mp hs
      rw [tick_of_ready hr hstage] at ht
      split_ifs at ht
      · exact startWord_requestsOnce hbetween hreq (.inl hstage) ht
      all_goals cases ht; exact requestsOnce_of_not_requested hreq rfl
    | executing w =>
      obtain ⟨hbetween, hreq⟩ := (inv_of_executing hstage).mp hs
      rw [tick_of_executing hr hstage] at ht
      split_ifs at ht
      · exact startWord_requestsOnce hbetween hreq (.inr ⟨w, hstage⟩) ht
      · cases ht; exact requestsOnce_of_not_requested hreq rfl
    | permuting k =>
      rw [tick_of_permuting hr hstage] at ht
      generalize unpackState e.permStateI = S' at ht
      split_ifs at ht <;> cases ht
      · exact requestsOnce_of_not_requested (by simp) (by simp)
      all_goals exact requestsOnce_of_not_requested rfl rfl
    | finishing k =>
      obtain ⟨-, hreq⟩ := (inv_of_finishing hstage).mp hs
      rw [tick_of_finishing hr hstage] at ht
      split_ifs at ht <;> cases ht
      · exact requestsOnce_of_not_requested (by simp [hreq]) (by simp)
      · exact requestsOnce_of_not_requested hreq rfl
    | responding =>
      obtain ⟨-, hreq⟩ := (inv_of_responding hstage).mp hs
      rw [tick_of_responding hr hstage] at ht
      split_ifs at ht <;> cases ht <;> exact requestsOnce_of_not_requested hreq rfl

end Sys2Proof.Machine
end

section
/-! SUPPORT. Proofs that the block at its ports does what the command transactions do: at every edge (00_scope.md R14,
60_exceptions.md R211), and with an engine of any latency (R212, 70_reset_and_hazards.md R240). -/

namespace Sys2Proof.Machine

/-! ### What a command does not read -/

/-- The state with its stage and its host's list replaced. -/
def State.withPorts (g : Stage) (l : List Word) (s : State) : State := { s with stage := g, cmdIn := l }

theorem advancePos_withPorts (P : Permute) (g : Stage) (l : List Word) (s : State) :
    advancePos P (s.withPorts g l) = (advancePos P s).withPorts g l := by
  by_cases h : s.pos + 1#8 = s.rateBytes
  · rw [advancePos_fills P h, advancePos_fills P (s := s.withPorts g l) h]
    rfl
  · rw [advancePos_within P h, advancePos_within P (s := s.withPorts g l) h]
    rfl

/-- A command reads neither the stage it is executed in nor the words the host has still to present. -/
theorem Effect.withPorts {P : Permute} {s t : State} {c : Option Instr} (h : Effect P s c t) (g : Stage)
    (l : List Word) : Effect P (s.withPorts g l) c (t.withPorts .ready l) := by
  cases h with
  | nop => exact .nop
  | rdstat => exact .rdstat
  | init hn => exact .init hn
  | initRejected hn => exact .initRejected hn
  | @absorb b hp hlt =>
    have heffect : Effect P (s.withPorts g l) (some (.absorb b)) (respond .ok 0#32
        (advancePos P ((setBytes (absorbedBytes b s) (beginCommand s)).withPorts g l))) := .absorb hp hlt
    rw [advancePos_withPorts] at heffect
    exact heffect
  | absorbRejected hp => exact .absorbRejected hp
  | finalize hp hlt => exact .finalize (s := s.withPorts g l) hp hlt
  | finalizeRejected hp => exact .finalizeRejected hp
  | squeeze hp hlt =>
    have heffect : Effect P (s.withPorts g l) (some .squeeze) (respond .ok (outputWord (byteAt s.S s.posOffset))
        (advancePos P ((beginCommand s).withPorts g l))) := .squeeze hp hlt
    rw [advancePos_withPorts] at heffect
    exact heffect
  | squeezeRejected hp => exact .squeezeRejected hp
  | illegal => exact .illegal

/-- An effect is the same from every stage. -/
theorem Effect.of_stage {P : Permute} {s t : State} {c : Option Instr} (h : Effect P s c t) (g : Stage) :
    Effect P { s with stage := g } c t := by
  have hsame : t.withPorts .ready s.cmdIn = t := by
    rw [State.withPorts, ← h.recorded.2, ← h.ports_unchanged.2.1]
  exact hsame ▸ h.withPorts g s.cmdIn

/-! ### One edge -/

/-- A word that starts comes to what `execWord` gives. -/
theorem completeInFlight_of_startWord {w : Word} {s u : State} (hs : betweenCommands s = true)
    (hreq : s.permReq = false) (hu : startWord w s = .next u) : completeInFlight u = execWord w s := by
  obtain ⟨t, u', ht, -, hu', hstarted⟩ := exists_started w hs hreq
  cases hu.symm.trans hu'
  rw [hstarted.completeInFlight, ht]

/-- A word that is accepted and not yet started comes to what `execWord` gives. -/
theorem completeInFlight_accepted (w : Word) {s : State} (hs : betweenCommands s = true) :
    completeInFlight { s with stage := .executing w } = execWord w s := by
  obtain ⟨t, h⟩ := exists_effect_of_betweenCommands Config.permute hs (decode w)
  rw [completeInFlight_of_executing rfl, execWord_eq_next.mpr h, execWord_eq_next.mpr (h.of_stage _)]

/-- An honest answer is the permutation of the bytes the block holds. -/
theorem unpackState_of_honest {P : Permute} {e : Edge} {s : State} {k : Resume} (hs : s.stage = .permuting k)
    (h : engineHonest P e s) (hdone : e.permDone = true) : unpackState e.permStateI = P s.S := by
  rw [engineHonest, hs] at h
  rw [h hdone, unpackState_packState]

theorem handOver_finishCommand_stage (k : Resume) (g : Stage) (s : State) :
    handOver (finishCommand k { s with stage := g }) = handOver (finishCommand k s) := by cases k <;> rfl

/-- Settles O54: by the stages of the block and its pace; only a ready block accepts. -/
theorem clockEdgesRefineTheCommands : Obligations.ClockEdgesRefineTheCommands := by
  intro e s t hs hr hhonest ht
  cases hstage : s.stage with
  | ready =>
    obtain ⟨hbetween, hreq⟩ := (inv_of_ready hstage).mp hs
    rw [accepts_of_ready hr hstage]
    rw [tick_of_ready hr hstage] at ht
    split_ifs at ht ⊢
    · exact completeInFlight_of_startWord hbetween hreq ht
    · cases ht; exact completeInFlight_accepted _ hbetween
    · cases ht; rfl
  | executing w =>
    obtain ⟨hbetween, hreq⟩ := (inv_of_executing hstage).mp hs
    rw [accepts_of_not_ready (by simp [hstage]), if_neg Bool.false_ne_true, completeInFlight_of_executing hstage]
    rw [tick_of_executing hr hstage] at ht
    split_ifs at ht
    · exact completeInFlight_of_startWord hbetween hreq ht
    · cases ht; exact completeInFlight_of_executing hstage
  | permuting k =>
    rw [accepts_of_not_ready (by simp [hstage]), if_neg Bool.false_ne_true, completeInFlight_of_permuting hstage]
    rw [tick_of_permuting hr hstage] at ht
    by_cases hdone : e.permDone = true
    · rw [if_pos hdone, unpackState_of_honest hstage hhonest hdone] at ht
      split_ifs at ht <;> cases ht
      · exact completeInFlight_of_responding (finishCommand_stage _ _)
      · rw [completeInFlight_of_finishing rfl, handOver_finishCommand_stage]
    · rw [if_neg hdone] at ht
      cases ht
      exact completeInFlight_of_permuting hstage
  | finishing k =>
    rw [accepts_of_not_ready (by simp [hstage]), if_neg Bool.false_ne_true, completeInFlight_of_finishing hstage]
    rw [tick_of_finishing hr hstage] at ht
    split_ifs at ht <;> cases ht
    · exact completeInFlight_of_responding (finishCommand_stage _ _)
    · exact completeInFlight_of_finishing hstage
  | responding =>
    rw [accepts_of_not_ready (by simp [hstage]), if_neg Bool.false_ne_true, completeInFlight_of_responding hstage]
    rw [tick_of_responding hr hstage] at ht
    split_ifs at ht <;> cases ht
    · exact completeInFlight_of_ready rfl
    · exact completeInFlight_of_responding hstage

/-! ### The engine -/

section EngineTick
variable (lat : Nat → Nat) (x : BitVec 1600) {g : Engine}

theorem Engine.tick_idle (h : g.job = none) : g.tick lat true false x = g := by
  obtain ⟨taken, job⟩ := g
  cases h
  rfl

theorem Engine.tick_request : g.tick lat true true x = ⟨g.taken + 1, some (lat g.taken - 1, x)⟩ := rfl

theorem Engine.tick_count {n : Nat} {y : BitVec 1600} (h : g.job = some (n + 1, y)) :
    g.tick lat true false x = { g with job := some (n, y) } := by
  simp [Engine.tick, h]

theorem Engine.tick_answer {y : BitVec 1600} (h : g.job = some (0, y)) :
    g.tick lat true false x = { g with job := none } := by
  simp [Engine.tick, h]

theorem Engine.done_of_none (h : g.job = none) : g.done = false := by rw [Engine.done, h]

theorem Engine.done_of_counting {n : Nat} {y : BitVec 1600} (h : g.job = some (n + 1, y)) : g.done = false := by
  simp [Engine.done, h]

end EngineTick

/-! ### The block with its engine -/

section SystemTick
variable {P : Permute} {lat : Nat → Nat} {h : HostPins} {s t : State} {g : Engine}

/-- One edge out of reset, from what the block and the engine do. -/
theorem System.tick_of_next (hr : h.rstN = true) (ht : Machine.tick (System.edge P h ⟨s, g⟩) s = .next t) :
    System.tick P lat h ⟨s, g⟩ = .next ⟨t, g.tick lat true s.permReq s.permStateO⟩ := by
  simp only [System.tick, ht, hr]

/-- A presented response waits for the host. -/
theorem System.tick_responding_held (hr : h.rstN = true) (hrr : h.rspReady = false) (hs : s.stage = .responding)
    (hreq : s.permReq = false) (hg : g.job = none) : System.tick P lat h ⟨s, g⟩ = .next ⟨s, g⟩ := by
  have ht : Machine.tick (System.edge P h ⟨s, g⟩) s = .next s := by
    rw [tick_of_responding hr hs]
    exact if_neg (by simp [System.edge, hrr])
  rw [System.tick_of_next hr ht, hreq, Engine.tick_idle lat _ hg]

theorem System.tick_responding_taken (hr : h.rstN = true) (hrr : h.rspReady = true) (hs : s.stage = .responding)
    (hreq : s.permReq = false) (hg : g.job = none) : System.tick P lat h ⟨s, g⟩ = .next ⟨handOver s, g⟩ := by
  have ht : Machine.tick (System.edge P h ⟨s, g⟩) s = .next (handOver s) := by
    rw [tick_of_responding hr hs]
    exact if_pos hrr
  rw [System.tick_of_next hr ht, hreq, Engine.tick_idle lat _ hg]

/-- While the engine has no answer the block waits, its request down after the first edge. -/
theorem System.tick_permuting_waits {k : Resume} (hr : h.rstN = true) (hs : s.stage = .permuting k)
    (hdone : g.done = false) :
    System.tick P lat h ⟨s, g⟩ =
      .next ⟨{ s with permReq := false }, g.tick lat true s.permReq s.permStateO⟩ := by
  refine System.tick_of_next hr ?_
  rw [tick_of_permuting hr hs]
  exact if_neg (by simp [System.edge, hdone])

/-- The engine's answer, taken by a block that gets on. -/
theorem System.tick_permuting_done {k : Resume} {S : StateBytes} (hr : h.rstN = true) (ha : h.advance = true)
    (hs : s.stage = .permuting k) (hreq : s.permReq = false) (hg : g.job = some (0, packState S)) :
    System.tick P lat h ⟨s, g⟩ =
      .next ⟨finishCommand k (loadPermuted (P S) s), { g with job := none }⟩ := by
  have hanswer : unpackState (System.edge P h ⟨s, g⟩).permStateI = P S := by
    simp only [System.edge, Engine.result, hg, unpackState_packState]
  have ht : Machine.tick (System.edge P h ⟨s, g⟩) s = .next (finishCommand k (loadPermuted (P S) s)) := by
    have hdone : (System.edge P h ⟨s, g⟩).permDone = true := by simp only [System.edge, Engine.done, hg]
    rw [tick_of_permuting hr hs, if_pos hdone, hanswer]
    exact if_pos ha
  rw [System.tick_of_next hr ht, hreq, Engine.tick_answer lat _ hg]

/-- An accepting edge of a block that gets on. -/
theorem System.tick_accepts {u : State} (hr : h.rstN = true) (hv : h.cmdValid = true) (ha : h.advance = true)
    (hs : s.stage = .ready) (hreq : s.permReq = false) (hg : g.job = none) (hu : startWord h.cmdWord s = .next u) :
    System.tick P lat h ⟨s, g⟩ = .next ⟨u, g⟩ := by
  have ht : Machine.tick (System.edge P h ⟨s, g⟩) s = .next u := by
    rw [tick_of_ready hr hs, ← hu]
    exact (if_pos hv).trans (if_pos ha)
  rw [System.tick_of_next hr ht, hreq, Engine.tick_idle lat _ hg]

/-- An accepting edge of a block that does not get on. -/
theorem System.tick_accepts_only (hr : h.rstN = true) (hv : h.cmdValid = true) (ha : h.advance = false)
    (hs : s.stage = .ready) (hreq : s.permReq = false) (hg : g.job = none) :
    System.tick P lat h ⟨s, g⟩ = .next ⟨{ s with stage := .executing h.cmdWord }, g⟩ := by
  have ht : Machine.tick (System.edge P h ⟨s, g⟩) s = .next { s with stage := .executing h.cmdWord } := by
    rw [tick_of_ready hr hs]
    exact (if_pos hv).trans (if_neg (by simp [System.edge, ha]))
  rw [System.tick_of_next hr ht, hreq, Engine.tick_idle lat _ hg]

end SystemTick

section SystemRun
variable {P : Permute} {lat : Nat → Nat}

theorem System.run_cons {h : HostPins} {hs : List HostPins} {y y' : System} (hy : y.tick P lat h = .next y') :
    System.run P lat (h :: hs) y = y'.run P lat hs := by
  rw [System.run, hy]

theorem System.run_append {hs₁ hs₂ : List HostPins} {y y' : System} (hy : y.run P lat hs₁ = .next y') :
    System.run P lat (hs₁ ++ hs₂) y = y'.run P lat hs₂ := by
  induction hs₁ generalizing y with
  | nil => cases hy; rfl
  | cons h hs₁ ih =>
    rw [System.run] at hy
    cases htick : y.tick P lat h with
    | next z => rw [htick] at hy; rw [List.cons_append, System.run_cons htick, ih hy]
    | fault r => rw [htick] at hy; cases hy
    | refused r => rw [htick] at hy; cases hy

/-- The host's pins while it waits for a response it does not take yet. -/
def waitingPins : HostPins := ⟨true, false, 0#32, false, true⟩

theorem System.run_waiting_responding (n : Nat) {s : State} {g : Engine} (hs : s.stage = .responding)
    (hreq : s.permReq = false) (hg : g.job = none) :
    System.run P lat (List.replicate n waitingPins) ⟨s, g⟩ = .next ⟨s, g⟩ := by
  induction n with
  | zero => rfl
  | succ n ih => rw [List.replicate_succ, System.run_cons (System.tick_responding_held rfl rfl hs hreq hg), ih]

/-- The engine counts down the cycles of the request it works on. -/
theorem System.run_waiting_counting (n taken : Nat) (x : BitVec 1600) {s : State} {k : Resume}
    (hs : s.stage = .permuting k) (hreq : s.permReq = false) :
    System.run P lat (List.replicate n waitingPins) ⟨s, ⟨taken, some (n, x)⟩⟩ = .next ⟨s, ⟨taken, some (0, x)⟩⟩ := by
  have hsame : { s with permReq := false } = s := by rw [← hreq]
  induction n with
  | zero => rfl
  | succ n ih =>
    have htick : System.tick P lat waitingPins ⟨s, ⟨taken, some (n + 1, x)⟩⟩ =
        .next ⟨s, ⟨taken, some (n, x)⟩⟩ := by
      rw [System.tick_permuting_waits rfl hs (Engine.done_of_counting rfl), hsame, hreq, Engine.tick_count lat _ rfl]
    rw [List.replicate_succ, System.run_cons htick, ih]

end SystemRun

/-- A started command presents its response after PERM_LATENCY + 1 edges at which the block gets on. -/
theorem Started.exists_run_to_response {lat : Nat → Nat} {s t u : State} {g : Engine} (h : Started s t u)
    (hlat : 1 ≤ lat g.taken) (hg : g.job = none) :
    ∃ v g', v.stage = .responding ∧ v.permReq = false ∧ handOver v = t ∧ g'.job = none ∧
      g'.taken = g.taken + t.perms ∧
      System.run Config.permute lat (List.replicate (lat g.taken + 1) waitingPins) ⟨u, g⟩ = .next ⟨v, g'⟩ := by
  cases h with
  | responding hstage hreq hperms _ hdone =>
    exact ⟨u, g, hstage, hreq, hdone, hg, by simp [hperms], System.run_waiting_responding _ hstage hreq hg⟩
  | @waiting k hstage _ hreq hperms _ hdone =>
    obtain ⟨n, hn⟩ := Nat.exists_eq_add_of_le' hlat
    have hrequest : System.tick Config.permute lat waitingPins ⟨u, g⟩ =
        .next ⟨{ u with permReq := false }, ⟨g.taken + 1, some (n, packState u.S)⟩⟩ := by
      rw [System.tick_permuting_waits rfl hstage (Engine.done_of_none hg), hreq, Engine.tick_request, hn,
        Nat.add_sub_cancel, State.permStateO]
    have hcount := System.run_waiting_counting (P := Config.permute) (lat := lat) n (g.taken + 1) (packState u.S)
      (s := { u with permReq := false }) hstage rfl
    have hanswer : System.tick Config.permute lat waitingPins
        ⟨{ u with permReq := false }, ⟨g.taken + 1, some (0, packState u.S)⟩⟩ =
        .next ⟨finishCommand k (loadPermuted (Config.permute u.S) u), ⟨g.taken + 1, none⟩⟩ :=
      System.tick_permuting_done rfl rfl hstage rfl rfl
    refine ⟨_, ⟨g.taken + 1, none⟩, finishCommand_stage k _, (finishCommand_permReq k _).trans rfl, hdone, rfl,
      by simp [hperms], ?_⟩
    rw [hn, List.replicate_succ, System.run_cons hrequest, List.replicate_succ', System.run_append hcount,
      System.run_cons hanswer]
    rfl

/-- Settles O55: the accepting edge, the edges to the response, and the edge that takes it. -/
theorem commandCompletesWithTheEngine : Obligations.CommandCompletesWithTheEngine := by
  intro lat w s g hlat hs hstage hg
  obtain ⟨hbetween, hreq⟩ := (inv_of_ready hstage).mp hs
  obtain ⟨t, u, ht, -, hu, hstarted⟩ := exists_started w hbetween hreq
  obtain ⟨v, g', hv, hvreq, hdone, hg', htaken, hrun⟩ := hstarted.exists_run_to_response (hlat _) hg
  have haccept : System.tick Config.permute lat ⟨true, true, w, false, true⟩ ⟨s, g⟩ = .next ⟨u, g⟩ :=
    System.tick_accepts rfl rfl rfl hstage hreq hg hu
  have htake : System.tick Config.permute lat ⟨true, false, 0#32, true, true⟩ ⟨v, g'⟩ = .next ⟨t, g'⟩ :=
    hdone ▸ System.tick_responding_taken rfl rfl hv hvreq hg'
  refine ⟨t, g', ht, hg', htaken, ?_⟩
  change System.run _ lat (_ :: (List.replicate _ waitingPins ++ [_])) _ = _
  rw [System.run_cons haccept, System.run_append hrun, System.run_cons htake]
  rfl

/-! ### The wait for the engine -/

/-- The block with its engine before the answer to the one request of a command can come, for at least `n` more
edges. -/
inductive Awaiting (lat : Nat → Nat) : Nat → System → Prop where
  | executing {s t : State} {w : Word} {g : Engine} (hstage : s.stage = .executing w) (hreq : s.permReq = false)
      (heffect : Effect Config.permute s (decode w) t) (hperms : t.perms = 1) (hg : g.job = none) :
      Awaiting lat (lat g.taken) ⟨s, g⟩
  | requested {s : State} {k : Resume} {g : Engine} (hstage : s.stage = .permuting k) (hreq : s.permReq = true)
      (hg : g.job = none) : Awaiting lat (lat g.taken) ⟨s, g⟩
  | counting {s : State} {k : Resume} {g : Engine} {n : Nat} {x : BitVec 1600} (hstage : s.stage = .permuting k)
      (hreq : s.permReq = false) (hg : g.job = some (n, x)) : Awaiting lat n ⟨s, g⟩

/-- A block that waits presents no response and accepts no command. -/
theorem Awaiting.busy {lat : Nat → Nat} {n : Nat} {y : System} (h : Awaiting lat n y) :
    y.block.rspValid = false ∧ y.block.busy = true := by
  cases h <;> simp [State.rspValid, State.busy, *]

/-- A word that makes a permutation waits once it has started. -/
theorem awaiting_of_startWord {lat : Nat → Nat} {w : Word} {s t : State} {g : Engine} (hreq : s.permReq = false)
    (h : Effect Config.permute s (decode w) t) (hperms : t.perms = 1) (hg : g.job = none) :
    ∃ u, startWord w s = .next u ∧ Awaiting lat (lat g.taken) ⟨u, g⟩ := by
  obtain ⟨u, hu, hstarted⟩ := startWord_of_effect hreq h
  cases hstarted with
  | responding _ _ hzero => simp [hzero] at hperms
  | waiting hstage _ hureq => exact ⟨u, hu, .requested hstage hureq hg⟩

/-- One edge out of reset uses up one of the edges left, whatever the host's pins and the block's pace. -/
theorem Awaiting.tick {lat : Nat → Nat} {n : Nat} {y : System} (h : Awaiting lat (n + 1) y) {p : HostPins}
    (hr : p.rstN = true) :
    ∃ y' m, System.tick Config.permute lat p y = .next y' ∧ n ≤ m ∧ Awaiting lat m y' := by
  generalize hn : n + 1 = n' at h
  cases h with
  | @executing s t w g hstage hreq heffect hperms hg =>
    cases ha : p.advance with
    | true =>
      obtain ⟨u, hu, hawait⟩ := awaiting_of_startWord (lat := lat) hreq heffect hperms hg
      have ht : Machine.tick (System.edge Config.permute p ⟨s, g⟩) s = .next u := by
        rw [tick_of_executing hr hstage, ← hu]
        exact if_pos ha
      refine ⟨⟨u, g⟩, _, ?_, by omega, hawait⟩
      rw [System.tick_of_next hr ht, hreq, Engine.tick_idle lat _ hg]
    | false =>
      have ht : Machine.tick (System.edge Config.permute p ⟨s, g⟩) s = .next s := by
        rw [tick_of_executing hr hstage]
        exact if_neg (by simp [System.edge, ha])
      refine ⟨⟨s, g⟩, _, ?_, by omega, .executing hstage hreq heffect hperms hg⟩
      rw [System.tick_of_next hr ht, hreq, Engine.tick_idle lat _ hg]
  | @requested s k g hstage hreq hg =>
    refine ⟨_, lat g.taken - 1, System.tick_permuting_waits hr hstage (Engine.done_of_none hg), by omega, ?_⟩
    rw [hreq, Engine.tick_request]
    exact .counting (s := { s with permReq := false }) hstage rfl rfl
  | @counting s k g _ x hstage hreq hg =>
    subst hn
    refine ⟨_, n, System.tick_permuting_waits hr hstage (Engine.done_of_counting hg), le_rfl, ?_⟩
    rw [hreq, Engine.tick_count lat _ hg]
    exact .counting (s := { s with permReq := false }) hstage rfl rfl

theorem Awaiting.run {lat : Nat → Nat} {n : Nat} {y : System} (h : Awaiting lat n y) {hs : List HostPins}
    (hr : ∀ p ∈ hs, p.rstN = true) (hlen : hs.length ≤ n) :
    ∃ y' m, System.run Config.permute lat hs y = .next y' ∧ Awaiting lat m y' := by
  induction hs generalizing n y with
  | nil => exact ⟨y, n, rfl, h⟩
  | cons p hs ih =>
    obtain ⟨n, rfl⟩ : ∃ n', n = n' + 1 := Nat.exists_eq_add_one_of_ne_zero (by rintro rfl; simp at hlen)
    obtain ⟨y', m, htick, hm, hawait⟩ := h.tick (hr p List.mem_cons_self)
    rw [System.run_cons htick]
    exact ih hawait (fun q hq => hr q (List.mem_cons_of_mem _ hq)) ((Nat.le_of_succ_le_succ hlen).trans hm)

/-- Settles O56: after the accepting edge the command is started or still to start, and waits in both. -/
theorem permutingCommandWaitsForTheEngine : Obligations.PermutingCommandWaitsForTheEngine := by
  intro lat a w rr hs s t g _ hinv hstage hg ht hperms hr hlen
  obtain ⟨hbetween, hreq⟩ := (inv_of_ready hstage).mp hinv
  have heffect := execWord_eq_next.mp ht
  have haccept : ∃ y, System.tick Config.permute lat ⟨true, true, w, rr, a⟩ ⟨s, g⟩ = .next y ∧
      Awaiting lat (lat g.taken) y := by
    cases a with
    | true =>
      obtain ⟨u, hu, hawait⟩ := awaiting_of_startWord (lat := lat) hreq heffect hperms hg
      exact ⟨_, System.tick_accepts rfl rfl rfl hstage hreq hg hu, hawait⟩
    | false =>
      exact ⟨_, System.tick_accepts_only rfl rfl rfl hstage hreq hg,
        .executing (s := { s with stage := .executing w }) rfl hreq (heffect.of_stage _) hperms hg⟩
  obtain ⟨y, htick, hawait⟩ := haccept
  obtain ⟨y', m, hrun, hawait'⟩ := hawait.run hr hlen
  exact ⟨y', (System.run_cons htick).trans hrun, hawait'.busy⟩

end Sys2Proof.Machine
end

section
/-! SUPPORT. One command from two states in the same place: what of its effect PHASE, STR and POS alone decide, and what
the sticky bits and the bytes of S decide besides. -/

namespace Sys2Proof.Machine

/-! ### What two states share -/

/-- Two states with the same sticky bits. -/
structure SameSticky (s t : State) : Prop where
  unsup : t.errUnsup = s.errUnsup
  proto : t.errProto = s.errProto
  illegal : t.errIllegal = s.errIllegal

theorem statusWord_congr {s t : State} (hplace : SamePlace s t) (hsticky : SameSticky s t) :
    t.statusWord = s.statusWord := by
  rw [State.statusWord, hplace.rateBytes, hplace.pos, hplace.str, hplace.phase, hsticky.unsup, hsticky.proto,
    hsticky.illegal, State.statusWord]

theorem session_eq_iff {s t : State} : t.session = s.session ↔ SamePlace s t ∧ t.S = s.S := by
  refine ⟨fun h => ?_, fun ⟨⟨hphase, hstr, hpos⟩, hS⟩ => by rw [State.session, hphase, hstr, hpos, hS, State.session]⟩
  simp only [State.session, Session.mk.injEq] at h
  obtain ⟨hphase, hstr, hpos, hS⟩ := h
  exact ⟨⟨hphase, hstr, hpos⟩, hS⟩

/-- What the control part keeps of a response: its status and its permutation count. -/
def Response.control (r : Response) : Status × Nat := (r.status, r.perms)

theorem control_eq_iff {s t : State} :
    t.control = s.control ↔ SamePlace s t ∧ SameSticky s t ∧ t.stage = s.stage ∧ t.rspStatus = s.rspStatus ∧
      t.permCount = s.permCount ∧ t.rspLog.map Response.control = s.rspLog.map Response.control := by
  constructor
  · intro h
    simp only [State.control, Control.mk.injEq] at h
    obtain ⟨hphase, hstr, hpos, hunsup, hproto, hillegal, hstage, hstatus, hcount, hlog⟩ := h
    exact ⟨⟨hphase, hstr, hpos⟩, ⟨hunsup, hproto, hillegal⟩, hstage, hstatus, hcount, hlog⟩
  · rintro ⟨⟨hphase, hstr, hpos⟩, ⟨hunsup, hproto, hillegal⟩, hstage, hstatus, hcount, hlog⟩
    simp only [State.control, Control.mk.injEq]
    exact ⟨hphase, hstr, hpos, hunsup, hproto, hillegal, hstage, hstatus, hcount, hlog⟩

/-! ### One command from two states -/

/-- The effects `t` and `t'` of one command from `s` and `s'`, over `P` and `Q`: they agree in place, status and
permutation count; in data, where STATUS and the byte SQUEEZE reads agree; and in the bytes, where those of `s` and
`s'` do. -/
structure Parallel (P Q : Permute) (s s' t t' : State) : Prop where
  place : SamePlace t t'
  status : t'.rspStatus = t.rspStatus
  perms : t'.perms = t.perms
  data : s'.statusWord = s.statusWord →
    (s.phase = .squeezing → s.pos.toNat < s.rateBytes.toNat → byteAt s'.S s.posOffset = byteAt s.S s.posOffset) →
    t'.rspData = t.rspData
  bytes : P = Q → s'.S = s.S → t'.S = t.S
  bytes_of_idle : s.phase = .idle → t.phase ≠ .idle → t'.S = t.S
  rateRegion : t.perms = 0 → (∀ a, a < s.rateBytes.toNat → byteAt s'.S a = byteAt s.S a) →
    ∀ a, a < s.rateBytes.toNat → byteAt t'.S a = byteAt t.S a

section Parallel
variable {P Q : Permute} {s s' : State}

theorem parallel_raise (e : Error) (h : SamePlace s s') :
    Parallel P Q s s' (raise e (beginCommand s)) (raise e (beginCommand s')) where
  place := ⟨by simp [h.phase], by simp [h.str], by simp [h.pos]⟩
  status := by simp
  perms := by simp
  data _ _ := by simp
  bytes _ hS := by simp [hS]
  bytes_of_idle hidle hne := absurd hidle (by simpa using hne)
  rateRegion _ hbytes := by simpa using hbytes

/-- NOP and RDSTAT: a response alone. -/
theorem parallel_respond {d d' : Word} (h : SamePlace s s') (hdata : s'.statusWord = s.statusWord → d' = d) :
    Parallel P Q s s' (respond .ok d (beginCommand s)) (respond .ok d' (beginCommand s')) where
  place := ⟨h.phase, h.str, h.pos⟩
  status := rfl
  perms := rfl
  data hword _ := hdata hword
  bytes _ hS := hS
  bytes_of_idle hidle hne := absurd hidle hne
  rateRegion _ hbytes := hbytes

theorem parallel_init (b : BitVec 1) :
    Parallel P Q s s' (respond .ok 0#32 (newSession b (beginCommand s)))
      (respond .ok 0#32 (newSession b (beginCommand s'))) where
  place := ⟨rfl, rfl, rfl⟩
  status := rfl
  perms := rfl
  data _ _ := rfl
  bytes _ _ := rfl
  bytes_of_idle _ _ := rfl
  rateRegion _ _ _ _ := rfl

/-- ABSORB and SQUEEZE: the advance of POS, from states `x` and `x'` still in the places of `s` and `s'`. -/
theorem parallel_advancePos {x x' : State} {d d' : Word} (h : SamePlace s s') (hx : SamePlace s x)
    (hx' : SamePlace s' x') (hperms : x.perms = 0) (hperms' : x'.perms = 0) (hactive : s.phase ≠ .idle)
    (hin : s.pos.toNat < s.rateBytes.toNat) (hS : s'.S = s.S → x'.S = x.S)
    (hdata : (s.phase = .squeezing → byteAt s'.S s.posOffset = byteAt s.S s.posOffset) → d' = d)
    (hregion : (∀ a, a < s.rateBytes.toNat → byteAt s'.S a = byteAt s.S a) →
      ∀ a, a < s.rateBytes.toNat → byteAt x'.S a = byteAt x.S a) :
    Parallel P Q s s' (respond .ok d (advancePos P x)) (respond .ok d' (advancePos Q x')) := by
  have hpos : x'.pos = x.pos := hx'.pos.trans (h.pos.trans hx.pos.symm)
  have hrate : x'.rateBytes = x.rateBytes := hx'.rateBytes.trans (h.rateBytes.trans hx.rateBytes.symm)
  refine ⟨⟨?_, ?_, ?_⟩, rfl, ?_, fun _ hbyte => hdata fun hp => hbyte hp hin, ?_, ?_, ?_⟩
  · simp [hx.phase, hx'.phase, h.phase]
  · simp [hx.str, hx'.str, h.str]
  · simp only [respond_pos, advancePos_pos, hpos, hrate]
  · simp only [respond_perms, advancePos_perms, hperms, hperms', hpos, hrate]
  · rintro rfl hbytes
    simp only [respond_S, advancePos_S, hpos, hrate, hS hbytes]
  · exact fun hidle => absurd hidle hactive
  · intro hzero hbytes a ha
    have hwithin : ¬ x.pos + 1#8 = x.rateBytes := by
      intro hfull
      simp [advancePos_perms, hfull] at hzero
    simpa only [respond_S, advancePos_S, hpos, hrate, if_neg hwithin] using hregion hbytes a ha

/-- ABSORB's byte goes to one offset, whatever the other bytes are. -/
theorem byteAt_absorbedBytes (b : Byte) {s : State} (h : s.posOffset < 200) (a : Nat) :
    byteAt (absorbedBytes b s) a = byteAt s.S a ^^^ if a = s.posOffset then b else 0#8 := byteAt_xorAt s.S b h a

/-- A command that has an effect from one state has one from every state in the same place, over every permutation. -/
theorem Effect.parallel {t : State} {c : Option Instr} (h : Effect P s c t) (Q : Permute) (hs : SamePlace s s') :
    ∃ t', Effect Q s' c t' ∧ Parallel P Q s s' t t' := by
  have hin (hlt : s.pos.toNat < s.rateBytes.toNat) : s'.pos.toNat < s'.rateBytes.toNat := by
    rwa [hs.pos, hs.rateBytes]
  cases h with
  | nop => exact ⟨_, .nop, parallel_respond hs fun _ => rfl⟩
  | rdstat => exact ⟨_, .rdstat, parallel_respond hs id⟩
  | init hn => exact ⟨_, .init hn, parallel_init _⟩
  | initRejected hn => exact ⟨_, .initRejected hn, parallel_raise _ hs⟩
  | @absorb b hp hlt =>
    refine ⟨_, .absorb (hs.phase.trans hp) (hin hlt), parallel_advancePos hs ⟨rfl, rfl, rfl⟩ ⟨rfl, rfl, rfl⟩ rfl rfl
      (by simp [hp]) hlt (fun hS => ?_) (fun _ => rfl) fun hbytes a ha => ?_⟩
    · simp only [setBytes_S, absorbedBytes, hs.posOffset, hS]
    · have hpos : s.posOffset < 200 := lt_stateBytes_of_lt_rateBytes hlt
      rw [setBytes_S, setBytes_S, byteAt_absorbedBytes b (hs.posOffset ▸ hpos), byteAt_absorbedBytes b hpos,
        hs.posOffset, hbytes a ha]
  | absorbRejected hp => exact ⟨_, .absorbRejected (hs.phase ▸ hp), parallel_raise _ hs⟩
  | finalize hp hlt =>
    refine ⟨_, .finalize (hs.phase.trans hp) (hin hlt), ⟨rfl, hs.str, rfl⟩, rfl, rfl, fun _ _ => rfl, ?_, ?_, ?_⟩
    · rintro rfl hS
      simp [paddedBytes, absorbedBytes, hs.posOffset, State.padEndOffset, hs.rateBytes, hS]
    · exact fun hidle => absurd hp (by simp [hidle])
    · exact fun hzero => absurd hzero (by simp)
  | finalizeRejected hp => exact ⟨_, .finalizeRejected (hs.phase ▸ hp), parallel_raise _ hs⟩
  | squeeze hp hlt =>
    refine ⟨_, .squeeze (hs.phase.trans hp) (hin hlt), parallel_advancePos hs ⟨rfl, rfl, rfl⟩ ⟨rfl, rfl, rfl⟩ rfl rfl
      (by simp [hp]) hlt id (fun hbyte => ?_) id⟩
    rw [hs.posOffset, hbyte hp]
  | squeezeRejected hp => exact ⟨_, .squeezeRejected (hs.phase ▸ hp), parallel_raise _ hs⟩
  | illegal => exact ⟨_, .illegal, parallel_raise _ hs⟩

/-- One command that reports the same status leaves the same sticky bits where they were the same. -/
theorem Effect.sameSticky {t t' : State} {c : Option Instr} (h : Effect P s c t) (h' : Effect Q s' c t')
    (hstatus : t'.rspStatus = t.rspStatus) (hs : SameSticky s s') : SameSticky t t' := by
  obtain ⟨⟨n, hc⟩, hok, hu, hp, hi⟩ | ⟨hother, hu, hp, hi⟩ := h.sticky <;>
    obtain ⟨⟨n', hc'⟩, hok', hu', hp', hi'⟩ | ⟨hother', hu', hp', hi'⟩ := h'.sticky
  · exact ⟨hu'.trans hu.symm, hp'.trans hp.symm, hi'.trans hi.symm⟩
  · obtain hne | hne := hother'
    · exact absurd hc (hne n)
    · exact absurd (hstatus.trans hok) hne
  · obtain hne | hne := hother
    · exact absurd hc' (hne n')
    · exact absurd (hstatus.symm.trans hok') hne
  · exact ⟨by rw [hu', hu, hs.unsup, hstatus], by rw [hp', hp, hs.proto, hstatus], by rw [hi', hi, hs.illegal, hstatus]⟩

variable {t t' : State}

theorem Parallel.session (h : Parallel P P s s' t t') (hs : s'.session = s.session) : t'.session = t.session :=
  session_eq_iff.mpr ⟨h.place, h.bytes rfl (session_eq_iff.mp hs).2⟩

/-- The control part after a command depends on the control part before it alone. -/
theorem Parallel.control (h : Parallel P Q s s' t t') {c : Option Instr} (heffect : Effect P s c t)
    (heffect' : Effect Q s' c t') (hs : s'.control = s.control) : t'.control = t.control := by
  obtain ⟨-, hsticky, -, -, hcount, hlog⟩ := control_eq_iff.mp hs
  obtain ⟨htlog, htstage⟩ := heffect.recorded
  obtain ⟨htlog', htstage'⟩ := heffect'.recorded
  refine control_eq_iff.mpr ⟨h.place, heffect.sameSticky heffect' h.status hsticky, htstage'.trans htstage.symm,
    h.status, ?_, ?_⟩
  · rw [heffect.permutations.2, heffect'.permutations.2, hcount, h.perms]
  · simp only [htlog, htlog', List.map_cons, Response.control, h.status, h.perms]
    exact congrArg _ hlog

/-- Two commands that agree in status, data and permutation count add the same response. -/
theorem Parallel.rspLog (h : Parallel P Q s s' t t') {c : Option Instr} (heffect : Effect P s c t)
    (heffect' : Effect Q s' c t') (hdata : t'.rspData = t.rspData) :
    ∃ r, t.rspLog = r :: s.rspLog ∧ t'.rspLog = r :: s'.rspLog := by
  refine ⟨_, heffect.recorded.1, ?_⟩
  rw [heffect'.recorded.1, h.status, h.perms, hdata]

end Parallel

/-- Settles O49: the two commands are in the same place, with the same STATUS and the same byte at POS. -/
theorem capacityBytesDoNotShow : Obligations.CapacityBytesDoNotShow := by
  intro w s t S' hbytes ht
  have heffect := execWord_eq_next.mp ht
  obtain ⟨t', heffect', h⟩ := heffect.parallel Config.permute (s' := { s with S := S' }) ⟨rfl, rfl, rfl⟩
  exact ⟨t', execWord_eq_next.mpr heffect', h.status, h.data rfl fun _ hlt => hbytes _ hlt, h.perms,
    h.control heffect heffect' rfl, fun hzero => h.rateRegion hzero hbytes⟩

end Sys2Proof.Machine
end

section
/-! SUPPORT. Proofs about runs of commands (20_memory.md section 5): by induction over the words, from what one command
does. -/

namespace Sys2Proof.Machine

/-! ### Runs of words and of commands -/

section Runs
variable {P : Permute} {s t : State}

theorem runWords_cons_eq_next {w : Word} {ws : List Word} :
    runWords P (w :: ws) s = .next t ↔ ∃ u, Effect P s (decode w) u ∧ runWords P ws u = .next t := by
  simp only [runWords, andThen_eq_next, execWordWith_eq_next]

theorem runCommands_cons_eq_next {i : Instr} {is : List Instr} :
    runCommands P (i :: is) s = .next t ↔ ∃ u, Effect P s (some i) u ∧ runCommands P is u = .next t := by
  simp only [runCommands, andThen_eq_next, execWith_eq_next]

/-- Commands are the words that encode them. -/
theorem runWords_map_encode (P : Permute) (is : List Instr) (s : State) :
    runWords P (is.map encode) s = runCommands P is s := by
  induction is generalizing s with
  | nil => rfl
  | cons i is ih =>
    have hword : execWordWith P (encode i) s = execWith P i s := by
      simp only [Machine.execWordWith, decode_encode]
    rw [List.map_cons, runWords, runCommands, hword, funext ih]

/-- A run in two parts (20_memory.md R61). -/
theorem runCommands_append (P : Permute) (is js : List Instr) (s : State) :
    runCommands P (is ++ js) s = andThen (runCommands P is s) (runCommands P js) := by
  induction is generalizing s with
  | nil => rfl
  | cons i is ih => rw [List.cons_append, runCommands, runCommands, andThen_assoc, funext ih]

theorem runCommands_append_eq_next {is js : List Instr} :
    runCommands P (is ++ js) s = .next t ↔ ∃ u, runCommands P is s = .next u ∧ runCommands P js u = .next t := by
  rw [runCommands_append, andThen_eq_next]

/-- From a state between commands every run answers, and ends in one. -/
theorem exists_runWords (P : Permute) (ws : List Word) {s : State} (hs : betweenCommands s = true) :
    ∃ t, runWords P ws s = .next t ∧ betweenCommands t = true := by
  induction ws generalizing s with
  | nil => exact ⟨s, rfl, hs⟩
  | cons w ws ih =>
    obtain ⟨u, hu⟩ := exists_effect_of_betweenCommands P hs (decode w)
    obtain ⟨t, ht, hbetween⟩ := ih (hu.betweenCommands hs)
    exact ⟨t, runWords_cons_eq_next.mpr ⟨u, hu, ht⟩, hbetween⟩

/-- A run adds one response a word (30_encoding.md R79). -/
theorem runWords_rspLog {ws : List Word} (h : runWords P ws s = .next t) :
    ∃ l, t.rspLog = l ++ s.rspLog ∧ l.length = ws.length := by
  induction ws generalizing s with
  | nil => cases h; exact ⟨[], rfl, rfl⟩
  | cons w ws ih =>
    obtain ⟨u, hu, hrun⟩ := runWords_cons_eq_next.mp h
    obtain ⟨l, hlog, hlen⟩ := ih hrun
    exact ⟨l ++ [_], by rw [hlog, hu.recorded.1, List.append_assoc, List.singleton_append], by simp [hlen]⟩

theorem runCommands_rspLog {is : List Instr} (h : runCommands P is s = .next t) :
    ∃ l, t.rspLog = l ++ s.rspLog ∧ l.length = is.length := by
  rw [← runWords_map_encode] at h
  simpa only [List.length_map] using runWords_rspLog h

end Runs

/-- Two runs of the same words keep a relation that every command keeps. -/
theorem runWords_parallel {P Q : Permute} {R : State → State → Prop}
    (hstep : ∀ {s s' t : State} {c : Option Instr}, R s s' → Effect P s c t → ∃ t', Effect Q s' c t' ∧ R t t')
    {ws : List Word} {s s' t : State} (hs : R s s') (h : runWords P ws s = .next t) :
    ∃ t', runWords Q ws s' = .next t' ∧ R t t' := by
  induction ws generalizing s s' with
  | nil => cases h; exact ⟨s', rfl, hs⟩
  | cons w ws ih =>
    obtain ⟨u, hu, hrun⟩ := runWords_cons_eq_next.mp h
    obtain ⟨u', hu', hR⟩ := hstep hs hu
    obtain ⟨t', hrun', hR'⟩ := ih hR hrun
    exact ⟨t', runWords_cons_eq_next.mpr ⟨u', hu', hrun'⟩, hR'⟩

/-! ### What cannot be observed -/

theorem sameControl_step (P Q : Permute) {s s' t : State} {c : Option Instr} (hs : s'.control = s.control)
    (h : Effect P s c t) : ∃ t', Effect Q s' c t' ∧ t'.control = t.control := by
  obtain ⟨t', h', hparallel⟩ := h.parallel Q (control_eq_iff.mp hs).1
  exact ⟨t', h', hparallel.control h h' hs⟩

/-- Settles O36: two runs over two permutations keep the control part equal. -/
theorem controlStateIsIndependentOfThePermutation : Obligations.ControlStateIsIndependentOfThePermutation :=
  fun P Q _ _ _ h => runWords_parallel (R := fun s s' => s'.control = s.control) (sameControl_step P Q) rfl h

/-- Two states that a host cannot tell apart: they differ at most in the bytes of S, and those only in IDLE. -/
structure Indistinguishable (s s' : State) : Prop where
  control : s'.control = s.control
  rspLog : s'.rspLog = s.rspLog
  bytes : s.phase ≠ .idle → s'.S = s.S

theorem Indistinguishable.step {P : Permute} {s s' t : State} {c : Option Instr} (hs : Indistinguishable s s')
    (h : Effect P s c t) : ∃ t', Effect P s' c t' ∧ Indistinguishable t t' := by
  obtain ⟨hplace, hsticky, -⟩ := control_eq_iff.mp hs.control
  obtain ⟨t', h', hparallel⟩ := h.parallel P hplace
  have hdata : t'.rspData = t.rspData :=
    hparallel.data (statusWord_congr hplace hsticky) fun hp _ => by rw [hs.bytes (by simp [hp])]
  obtain ⟨r, hlog, hlog'⟩ := hparallel.rspLog h h' hdata
  refine ⟨t', h', hparallel.control h h' hs.control, by rw [hlog, hlog', hs.rspLog], fun hne => ?_⟩
  by_cases hidle : s.phase = .idle
  · exact hparallel.bytes_of_idle hidle hne
  · exact hparallel.bytes rfl (hs.bytes hidle)

/-- Settles O35: in IDLE two contents of S are indistinguishable, and commands keep them so. -/
theorem resetBytesCannotBeObserved : Obligations.ResetBytesCannotBeObserved := by
  intro P ws s S1 S2 hidle hs
  have hstart : Indistinguishable { s with S := S1 } { s with S := S2 } := ⟨rfl, rfl, fun hne => absurd hidle hne⟩
  obtain ⟨t1, h1, -⟩ := exists_runWords P ws (s := { s with S := S1 }) hs
  obtain ⟨t2, h2, hcontrol, hlog, hbytes⟩ := runWords_parallel Indistinguishable.step hstart h1
  exact ⟨t1, t2, h1, h2, hlog.symm, hcontrol.symm, fun hne => (hbytes hne).symm⟩

/-- Two states with the same session and sticky bits that have given the same responses since `L` and `L'`. -/
structure SameSince (L L' : List Response) (s s' : State) : Prop where
  session : s'.session = s.session
  sticky : SameSticky s s'
  rspLog : ∃ l, s.rspLog = l ++ L ∧ s'.rspLog = l ++ L'

theorem SameSince.step {P : Permute} {L L' : List Response} {s s' t : State} {c : Option Instr}
    (hs : SameSince L L' s s') (h : Effect P s c t) : ∃ t', Effect P s' c t' ∧ SameSince L L' t t' := by
  obtain ⟨hplace, hS⟩ := session_eq_iff.mp hs.session
  obtain ⟨t', h', hparallel⟩ := h.parallel P hplace
  have hdata : t'.rspData = t.rspData :=
    hparallel.data (statusWord_congr hplace hs.sticky) fun _ _ => by rw [hS]
  obtain ⟨r, hlog, hlog'⟩ := hparallel.rspLog h h' hdata
  obtain ⟨l, hl, hl'⟩ := hs.rspLog
  exact ⟨t', h', hparallel.session hs.session, h.sameSticky h' hparallel.status hs.sticky, r :: l,
    by rw [hlog, hl, List.cons_append], by rw [hlog', hl', List.cons_append]⟩

/-- Two states after the same successful INIT. -/
theorem sameSince_newSession (b : BitVec 1) (s s' : State) :
    SameSince s.rspLog s'.rspLog (respond .ok 0#32 (newSession b (beginCommand s)))
      (respond .ok 0#32 (newSession b (beginCommand s'))) :=
  ⟨rfl, ⟨rfl, rfl, rfl⟩, [⟨.ok, 0#32, 0⟩], rfl, rfl⟩

/-- Settles O37: after the INIT the two runs keep the session, the sticky bits and the responses equal. -/
theorem initForgetsThePast : Obligations.InitForgetsThePast := by
  intro P i ws s1 s2 t1 hi h
  obtain ⟨n, b, rfl, hn⟩ := isSuccessfulInit_iff.mp hi
  have hinit (s : State) : Effect P s (decode (encode (.init n))) (respond .ok 0#32 (newSession b (beginCommand s))) :=
    (decode_encode (.init n)).symm ▸ .init hn
  obtain ⟨u, hu, hrun⟩ := runWords_cons_eq_next.mp h
  obtain rfl : respond .ok 0#32 (newSession b (beginCommand s1)) = u := by
    simpa using (hinit s1).execWordWith.symm.trans hu.execWordWith
  obtain ⟨t2, hrun2, hsession, ⟨hunsup, hproto, hillegal⟩, l, hl, hl'⟩ :=
    runWords_parallel SameSince.step (sameSince_newSession b s1 s2) hrun
  refine ⟨t2, runWords_cons_eq_next.mpr ⟨_, hinit s2, hrun2⟩, hsession.symm, hunsup.symm, hproto.symm,
    hillegal.symm, ?_⟩
  have hlen : l.length = ws.length + 1 := by
    obtain ⟨l', hlog, hlen⟩ := runWords_rspLog h
    have htotal := congrArg List.length (hl.symm.trans hlog)
    simp only [List.length_append, hlen, List.length_cons] at htotal
    omega
  rw [hl, hl', ← hlen, List.take_left, List.take_left]

/-! ### Words that change no session -/

/-- The words O42 takes out of a run: NOP, RDSTAT and the illegal words. -/
def inert (c : Option Instr) : Prop := c = none ∨ c = some .nop ∨ c = some .rdstat

theorem Effect.session_of_inert {P : Permute} {s t : State} {c : Option Instr} (h : Effect P s c t) (hc : inert c) :
    t.session = s.session := by
  obtain rfl | rfl | rfl := hc <;> cases h <;> simp [State.session]

/-- Settles O42: an inert word leaves the session, and any other keeps two equal sessions equal. -/
theorem inertWordsDoNotDisturbTheSession : Obligations.InertWordsDoNotDisturbTheSession := by
  intro P ws s t h
  suffices hgeneral : ∀ s', s'.session = s.session → ∃ t', runWords P (ws.filter fun w =>
      decide (decode w ≠ none ∧ decode w ≠ some .nop ∧ decode w ≠ some .rdstat)) s' = .next t' ∧
      t'.session = t.session from hgeneral s rfl
  induction ws generalizing s with
  | nil => cases h; exact fun s' hs => ⟨s', rfl, hs⟩
  | cons w ws ih =>
    intro s' hs
    obtain ⟨u, hu, hrun⟩ := runWords_cons_eq_next.mp h
    by_cases hw : decode w ≠ none ∧ decode w ≠ some .nop ∧ decode w ≠ some .rdstat
    · obtain ⟨u', hu', hparallel⟩ := hu.parallel P (session_eq_iff.mp hs).1
      obtain ⟨t', hrun', ht'⟩ := ih u hrun u' (hparallel.session hs)
      rw [List.filter_cons_of_pos (by exact decide_eq_true hw)]
      exact ⟨t', runWords_cons_eq_next.mpr ⟨u', hu', hrun'⟩, ht'⟩
    · have hinert : inert (decode w) := by simpa only [inert, not_and_or, not_not] using hw
      rw [List.filter_cons_of_neg (by simpa using hw)]
      exact ih u hrun s' (hs.trans (hu.session_of_inert hinert).symm)

/-- In SQUEEZING, a command that is no successful INIT leaves PHASE and STR. -/
theorem Effect.stays_squeezing {P : Permute} {s t : State} {c : Option Instr} (h : Effect P s c t)
    (hs : s.phase = .squeezing) (hc : ∀ i, c = some i → isSuccessfulInit i = false) :
    t.phase = .squeezing ∧ t.str = s.str := by
  have hno : ¬ ∃ i, c = some i ∧ isSuccessfulInit i = true := fun ⟨i, hi, htrue⟩ => by simp [hc i hi] at htrue
  refine ⟨?_, h.str_eq_or_init.resolve_right hno⟩
  obtain hsame | ⟨i, hi, htrue, -⟩ | ⟨-, -, habsorbing, -⟩ := h.phase_cases
  · exact hsame.trans hs
  · exact absurd ⟨i, hi, htrue⟩ hno
  · simp [hs] at habsorbing

/-- Settles O48: the run stays in SQUEEZING, where FINALIZE is rejected. -/
theorem finalizeHappensOncePerSession : Obligations.FinalizeHappensOncePerSession := by
  intro P ws s t hs hws h
  have hstay : t.phase = .squeezing ∧ t.str = s.str := by
    induction ws generalizing s with
    | nil => cases h; exact ⟨hs, rfl⟩
    | cons w ws ih =>
      obtain ⟨u, hu, hrun⟩ := runWords_cons_eq_next.mp h
      obtain ⟨hphase, hstr⟩ := hu.stays_squeezing hs (hws w List.mem_cons_self)
      rw [← hstr]
      exact ih u hphase (fun v hv => hws v (List.mem_cons_of_mem w hv)) hrun
  refine ⟨hstay.1, hstay.2, _, execWith_eq_next.mpr (.finalizeRejected (by simp [hstay.1])), raise_rspStatus .., ?_, ?_⟩
  · simp [State.session]
  · simp

/-! ### The machine's own run -/

/-- `k` steps of the machine, stopping at the first that stops. -/
def runSteps : Nat → State → Out
  | 0, s => .next s
  | k + 1, s => andThen (step s) (runSteps k)

theorem core_run_eq_runSteps (k : Nat) (s : State) : Host.Core.run Sys2Proof.core k s = runSteps k s := by
  induction k generalizing s with
  | zero => rfl
  | succ k ih =>
    have hstep : Sys2Proof.core.step s = step s := rfl
    simp only [Host.Core.run, hstep, runSteps]
    cases step s with
    | next t => exact ih t
    | fault r => rfl
    | refused r => rfl

/-- A word executed with one list of further words and with another: the same effect, or the same stop. -/
theorem execWordWith_withPorts (P : Permute) (w : Word) (s : State) (rest l : List Word) :
    (∃ t, execWordWith P w (s.withPorts .ready rest) = .next t ∧ t = t.withPorts .ready rest ∧
      execWordWith P w (s.withPorts .ready l) = .next (t.withPorts .ready l)) ∨
    ∃ r, execWordWith P w (s.withPorts .ready rest) = .fault r ∧
      execWordWith P w (s.withPorts .ready l) = .fault r := by
  obtain ⟨t, ht⟩ | ⟨-, hfault⟩ := effect_or_stops P w (s.withPorts .ready rest)
  · have hsame : t = t.withPorts .ready t.cmdIn := by rw [State.withPorts, ← ht.recorded.2]
    rw [ht.ports_unchanged.2.1] at hsame
    exact .inl ⟨t, ht.execWordWith, hsame, (ht.withPorts .ready l).execWordWith⟩
  · obtain ⟨t, ht⟩ | ⟨-, hfault'⟩ := effect_or_stops P w (s.withPorts .ready l)
    · cases hfault.symm.trans (ht.withPorts .ready rest).execWordWith
    · exact .inr ⟨_, hfault, hfault'⟩

theorem withPorts_ready {s : State} (hs : s.stage = .ready) (l : List Word) :
    { s with cmdIn := l } = s.withPorts .ready l := by rw [State.withPorts, ← hs]

/-- The machine's steps take the presented words one after another (20_memory.md R61). -/
theorem runSteps_of_presented {ws rest : List Word} {s : State} (hs : s.stage = .ready) (hcmd : s.cmdIn = ws ++ rest) :
    runSteps ws.length s = runWords Config.permute ws { s with cmdIn := rest } := by
  rw [withPorts_ready hs]
  induction ws generalizing s with
  | nil =>
    rw [← withPorts_ready hs, ← show s.cmdIn = rest from hcmd]
    rfl
  | cons w ws ih =>
    rw [List.length_cons, runSteps, runWords, step_of_cons hs hcmd, withPorts_ready hs, execWord_eq_execWordWith]
    obtain ⟨t, ht, hsame, hl⟩ | ⟨r, hr, hl⟩ := execWordWith_withPorts Config.permute w s rest (ws ++ rest)
    · have hrun := ih (s := t.withPorts .ready (ws ++ rest)) rfl rfl
      rw [ht, andThen_next]
      refine (congrArg (andThen · _) hl).trans (hrun.trans (congrArg _ hsame.symm))
    · rw [hr]
      exact congrArg (andThen · _) hl

/-- Settles O38. -/
theorem coreRunIsTheRunOfThePresentedWords : Obligations.CoreRunIsTheRunOfThePresentedWords := fun _ _ _ hs hcmd =>
  (core_run_eq_runSteps _ _).trans (runSteps_of_presented hs hcmd)

/-! ### Output bytes -/

/-- What later commands return comes after what earlier ones returned. -/
theorem lastBytes_add {s t : State} {l : List Response} {k : Nat} (n : Nat) (hlog : t.rspLog = l ++ s.rspLog)
    (hlen : l.length = k) : lastBytes (n + k) t = lastBytes n s ++ lastBytes k t := by
  subst hlen
  have htake : (l ++ s.rspLog).take (n + l.length) = l ++ s.rspLog.take n := by
    rw [List.take_append, List.take_of_length_le (Nat.le_add_left ..), Nat.add_sub_cancel]
  simp [lastBytes, hlog, htake]

/-- SQUEEZE commands in two runs return the bytes of the one run. -/
theorem lastBytes_squeezeN_add {P : Permute} {m : Nat} {s t : State} (n : Nat)
    (h : runCommands P (squeezeN m) s = .next t) : lastBytes (n + m) t = lastBytes n s ++ lastBytes m t := by
  obtain ⟨l, hlog, hlen⟩ := runCommands_rspLog h
  exact lastBytes_add n hlog (hlen.trans List.length_replicate)

theorem squeezeN_add (m n : Nat) : squeezeN (m + n) = squeezeN m ++ squeezeN n := by
  rw [squeezeN, List.replicate_add, squeezeN, squeezeN]

/-- Settles O43. -/
theorem squeezeIsComposable : Obligations.SqueezeIsComposable := by
  intro P n1 n2 s t1 t2 h1 h2
  refine ⟨t2, ?_, rfl, lastBytes_squeezeN_add n1 h2⟩
  rw [squeezeN_add, runCommands_append_eq_next]
  exact ⟨t1, h1, h2⟩

theorem length_lastBytes_squeezeN {P : Permute} {n : Nat} {s t : State}
    (h : runCommands P (squeezeN n) s = .next t) : (lastBytes n t).length = n := by
  obtain ⟨l, hlog, hlen⟩ := runCommands_rspLog h
  rw [squeezeN, List.length_replicate] at hlen
  simp [lastBytes, hlog, hlen]

/-- Settles O44: the longer run is the shorter one and the rest. -/
theorem shorterOutputIsAPrefix : Obligations.ShorterOutputIsAPrefix := by
  intro P n n' s t t' hn h h'
  obtain ⟨m, rfl⟩ := Nat.exists_eq_add_of_le hn
  rw [squeezeN_add, runCommands_append_eq_next] at h'
  obtain ⟨u, hu, hrest⟩ := h'
  cases h.symm.trans hu
  rw [lastBytes_squeezeN_add n hrest, List.take_left' (length_lastBytes_squeezeN h)]

end Sys2Proof.Machine
end

section
/-! SUPPORT. Proofs about sessions (20_memory.md R54, R65 to R67): where ABSORB and SQUEEZE commands take POS and the
permutation count, and the bytes a message leaves in S and a session returns. -/

namespace Sys2Proof.Machine

/-! ### One byte further in a block -/

/-- A position that is not its block's last has the next one in the same block. -/
theorem succ_div_mod_within {x r : Nat} (h : x % r + 1 < r) : (x + 1) / r = x / r ∧ (x + 1) % r = x % r + 1 := by
  have hx := Nat.mod_add_div x r
  exact (Nat.div_mod_unique (Nat.zero_lt_of_lt h)).mpr ⟨by omega, h⟩

/-- A position that is its block's last has the first of the next block after it. -/
theorem succ_div_mod_last {x r : Nat} (h : x % r + 1 = r) : (x + 1) / r = x / r + 1 ∧ (x + 1) % r = 0 := by
  have hx := Nat.mod_add_div x r
  have hr : 0 < r := by omega
  exact (Nat.div_mod_unique hr).mpr ⟨by rw [Nat.mul_add]; omega, hr⟩

/-- `k` bytes of a session have gone in or out since `s`: POS and the permutation count have moved on by as many, and
PHASE, STR and the sticky bits are as they were (41_absorb.md R122, 43_squeeze.md R161). -/
structure Progress (s t : State) (k : Nat) : Prop where
  phase : t.phase = s.phase
  str : t.str = s.str
  sticky : SameSticky s t
  pos : t.pos.toNat = (s.pos.toNat + k) % s.rateBytes.toNat
  permCount : t.permCount = s.permCount + (s.pos.toNat + k) / s.rateBytes.toNat

namespace Progress
variable {s t : State} {k : Nat}

theorem refl (h : s.pos.toNat < s.rateBytes.toNat) : Progress s s 0 where
  phase := rfl
  str := rfl
  sticky := ⟨rfl, rfl, rfl⟩
  pos := (Nat.mod_eq_of_lt h).symm
  permCount := by rw [Nat.add_zero, Nat.div_eq_of_lt h, Nat.add_zero]

theorem rateBytes (h : Progress s t k) : t.rateBytes = s.rateBytes := rateBytes_congr h.phase h.str

theorem pos_lt (h : Progress s t k) (hp : s.phase ≠ .idle) : t.pos.toNat < t.rateBytes.toNat := by
  rw [h.pos, h.rateBytes]
  exact Nat.mod_lt _ (rateBytes_toNat_pos hp)

theorem setBytes_beginCommand (h : Progress s t k) (S : StateBytes) :
    Progress s (setBytes S (beginCommand t)) k :=
  ⟨h.phase, h.str, ⟨h.sticky.unsup, h.sticky.proto, h.sticky.illegal⟩, h.pos, h.permCount⟩

theorem beginCommand (h : Progress s t k) : Progress s (Machine.beginCommand t) k :=
  ⟨h.phase, h.str, ⟨h.sticky.unsup, h.sticky.proto, h.sticky.illegal⟩, h.pos, h.permCount⟩

/-- The two ways POS advances, in positions counted from the start of the block `s` stands in. -/
theorem advancePos_cases (P : Permute) (h : Progress s t k) (hp : s.phase ≠ .idle) :
    ((s.pos.toNat + k) % s.rateBytes.toNat + 1 < s.rateBytes.toNat ∧
        advancePos P t = setPos (t.pos + 1#8) t) ∨
      ((s.pos.toNat + k) % s.rateBytes.toNat + 1 = s.rateBytes.toNat ∧
        advancePos P t = setPos 0#8 (permute P (setPos (t.pos + 1#8) t))) := by
  rw [← h.pos, ← h.rateBytes]
  exact Machine.advancePos_cases P (h.pos_lt hp)

theorem respond_advancePos (P : Permute) (d : Word) (h : Progress s t k) (hp : s.phase ≠ .idle) :
    Progress s (respond .ok d (advancePos P t)) (k + 1) := by
  refine ⟨by simp [h.phase], by simp [h.str],
    ⟨by simp [h.sticky.unsup], by simp [h.sticky.proto], by simp [h.sticky.illegal]⟩, ?_, ?_⟩ <;>
    rw [← Nat.add_assoc] <;>
    obtain ⟨hwithin, ht⟩ | ⟨hlast, ht⟩ := h.advancePos_cases P hp
  · rw [ht, respond_pos, setPos_pos, pos_add_one_toNat (h.pos_lt hp), (succ_div_mod_within hwithin).2, h.pos]
  · rw [ht, respond_pos, setPos_pos, (succ_div_mod_last hlast).2]
    rfl
  · rw [ht, respond_permCount, setPos_permCount, (succ_div_mod_within hwithin).1, h.permCount]
  · rw [ht, respond_permCount, setPos_permCount, permute_permCount, setPos_permCount, (succ_div_mod_last hlast).1,
      h.permCount, Nat.add_assoc]

end Progress

/-! ### Absorbing a message -/

/-- A block XORed in with one more byte of the message. -/
theorem xorBlock_messageBlock_append {rate p q o : Nat} {m : List Byte} (b : Byte) (S : StateBytes)
    (hpos : q * rate + o = p + m.length) (ho : o < rate) (hrate : rate ≤ 200) :
    xorBlock S (messageBlock rate p (m ++ [b]) q) = xorAt (xorBlock S (messageBlock rate p m q)) o b := by
  refine bytes_ext fun a ha => ?_
  rw [byteAt_xorAt _ b (by omega), byteAt_xorBlock_messageBlock _ _ _ _ _ ha, byteAt_xorBlock_messageBlock _ _ _ _ _ ha,
    messageByteAt_append]
  by_cases hao : a = o
  · subst hao
    rw [if_pos ⟨ho, hpos⟩, if_pos rfl, messageByteAt_past hpos.ge, BitVec.xor_zero]
  · rw [if_neg (by omega), if_neg hao, BitVec.xor_zero]

/-- One more byte changes no block before its own. -/
theorem messageBlock_append_of_lt {rate p q : Nat} {m : List Byte} (b : Byte) (hq : q < (p + m.length) / rate) :
    messageBlock rate p (m ++ [b]) q = messageBlock rate p m q := by
  refine List.map_congr_left fun j hj => ?_
  have hj := List.mem_range.mp hj
  have hblock : (q + 1) * rate ≤ p + m.length := (Nat.mul_le_mul_right rate hq).trans (Nat.div_mul_le_self ..)
  rw [Nat.add_one_mul] at hblock
  rw [messageByteAt_append, if_neg (by omega)]

theorem absorbedState_append_of_lt (P : Permute) {rate p q : Nat} {m : List Byte} (b : Byte) (S : StateBytes)
    (hq : q < (p + m.length) / rate) :
    absorbedState P rate p (m ++ [b]) S q = absorbedState P rate p m S q := by
  induction q with
  | zero => rw [absorbedState, absorbedState, messageBlock_append_of_lt b hq]
  | succ q ih => rw [absorbedState, absorbedState, messageBlock_append_of_lt b hq, ih (Nat.lt_of_succ_lt hq)]

/-- One more byte of the message is XORed into its own place of its own block. -/
theorem absorbedState_append (P : Permute) {rate p : Nat} (m : List Byte) (b : Byte) (S : StateBytes)
    (hpos : 0 < rate) (hrate : rate ≤ 200) :
    absorbedState P rate p (m ++ [b]) S ((p + m.length) / rate) =
      xorAt (absorbedState P rate p m S ((p + m.length) / rate)) ((p + m.length) % rate) b := by
  have hplace := Nat.div_add_mod' (p + m.length) rate
  have hlt := Nat.mod_lt (p + m.length) hpos
  generalize hq : (p + m.length) / rate = q at hplace ⊢
  cases q with
  | zero => rw [absorbedState, absorbedState, xorBlock_messageBlock_append b _ hplace hlt hrate]
  | succ q =>
    rw [absorbedState, absorbedState, xorBlock_messageBlock_append b _ hplace hlt hrate,
      absorbedState_append_of_lt P b S (by omega)]

/-- A block that no byte of the message has reached is the permutation of the one before it. -/
theorem absorbedState_succ_of_le (P : Permute) {rate p q : Nat} {m : List Byte} (S : StateBytes)
    (h : p + m.length ≤ (q + 1) * rate) :
    absorbedState P rate p m S (q + 1) = P (absorbedState P rate p m S q) := by
  rw [absorbedState, xorBlock_messageBlock_past _ h]

theorem absorbedState_nil (P : Permute) (rate p : Nat) (S : StateBytes) : absorbedState P rate p [] S 0 = S := by
  refine bytes_ext fun a ha => ?_
  rw [absorbedState, byteAt_xorBlock_messageBlock _ _ _ _ _ ha]
  simp [messageByteAt]

/-- The state `t` after the message `m` has been absorbed from `s`. -/
structure Absorbed (P : Permute) (s : State) (m : List Byte) (t : State) : Prop where
  progress : Progress s t m.length
  bytes : t.S = absorbedState P s.rateBytes.toNat s.pos.toNat m s.S
    ((s.pos.toNat + m.length) / s.rateBytes.toNat)
  responses : ∃ l, t.rspLog = l ++ s.rspLog ∧ l.length = m.length ∧ ∀ r ∈ l, r.status = .ok ∧ r.data = 0#32

theorem Absorbed.refl (P : Permute) {s : State} (h : s.pos.toNat < s.rateBytes.toNat) : Absorbed P s [] s where
  progress := .refl h
  bytes := by rw [List.length_nil, Nat.add_zero, Nat.div_eq_of_lt h, absorbedState_nil]
  responses := ⟨[], rfl, rfl, nofun⟩

/-- ABSORB of the next byte of the message. -/
theorem Absorbed.absorb {P : Permute} {s t : State} {m : List Byte} (h : Absorbed P s m t) (b : Byte)
    (hp : s.phase ≠ .idle) :
    Absorbed P s (m ++ [b]) (respond .ok 0#32 (advancePos P (setBytes (absorbedBytes b t) (beginCommand t)))) := by
  have hprogress := h.progress.setBytes_beginCommand (absorbedBytes b t)
  have hbytes : absorbedBytes b t = absorbedState P s.rateBytes.toNat s.pos.toNat (m ++ [b]) s.S
      ((s.pos.toNat + m.length) / s.rateBytes.toNat) := by
    rw [absorbedState_append P m b s.S (rateBytes_toNat_pos hp) ((rateBytes_le s).trans (by decide)), ← h.bytes,
      ← h.progress.pos]
    rfl
  refine ⟨?_, ?_, ?_⟩
  · rw [List.length_append, List.length_singleton]
    exact hprogress.respond_advancePos P _ hp
  · rw [List.length_append, List.length_singleton, ← Nat.add_assoc, respond_S]
    obtain ⟨hwithin, ht⟩ | ⟨hlast, ht⟩ := hprogress.advancePos_cases P hp
    · rw [ht, setPos_S, setBytes_S, hbytes, (succ_div_mod_within hwithin).1]
    · have hend := Nat.div_add_mod' (s.pos.toNat + m.length) s.rateBytes.toNat
      rw [ht, setPos_S, permute_S, setPos_S, setBytes_S, hbytes, (succ_div_mod_last hlast).1,
        absorbedState_succ_of_le]
      rw [List.length_append, List.length_singleton, Nat.add_one_mul]
      omega
  · obtain ⟨l, hlog, hlen, hall⟩ := h.responses
    rw [respond_rspLog, advancePos_rspLog, setBytes_rspLog, beginCommand_rspLog, hlog]
    exact ⟨_ :: l, rfl, by simp [hlen], List.forall_mem_cons.mpr ⟨⟨rfl, rfl⟩, hall⟩⟩

/-- ABSORB_BYTES answers from every ABSORBING state between commands. -/
theorem exists_absorbed (P : Permute) (m : List Byte) {s : State} (hp : s.phase = .absorbing)
    (hlt : s.pos.toNat < s.rateBytes.toNat) :
    ∃ t, runCommands P (absorbBytes m) s = .next t ∧ Absorbed P s m t := by
  have hactive : s.phase ≠ .idle := by simp [hp]
  induction m using List.reverseRecOn with
  | nil => exact ⟨s, rfl, .refl P hlt⟩
  | append_singleton m b ih =>
    obtain ⟨t, hrun, h⟩ := ih
    have heffect := Effect.absorb (P := P) (b := b) (h.progress.phase.trans hp) (h.progress.pos_lt hactive)
    refine ⟨_, ?_, h.absorb b hactive⟩
    rw [absorbBytes, List.map_append, runCommands_append_eq_next]
    exact ⟨t, hrun, runCommands_cons_eq_next.mpr ⟨_, heffect, rfl⟩⟩

theorem pos_lt_of_betweenCommands {s : State} (hp : s.phase ≠ .idle) (hs : betweenCommands s = true) :
    s.pos.toNat < s.rateBytes.toNat := (betweenCommands_iff.mp hs).2 hp

/-- Settles O45. -/
theorem absorbRunPositionAndPermutations : Obligations.AbsorbRunPositionAndPermutations := by
  intro P m s hp hs
  obtain ⟨t, hrun, h⟩ := exists_absorbed P m hp (pos_lt_of_betweenCommands (by simp [hp]) hs)
  exact ⟨t, hrun, h.progress.phase.trans hp, h.progress.str, h.progress.pos, h.progress.permCount⟩

/-- Settles O41: the split of the run, and `exists_absorbed` for the whole message. -/
theorem absorbIsInvariantUnderChunking : Obligations.AbsorbIsInvariantUnderChunking := by
  intro P m1 m2 s
  refine ⟨by rw [absorbBytes, List.map_append, runCommands_append]; rfl, fun hp hs => ?_⟩
  obtain ⟨t, hrun, ⟨hphase, hstr, ⟨hunsup, hproto, hillegal⟩, hpos, -⟩, hbytes, l, hlog, hlen, hall⟩ :=
    exists_absorbed P (m1 ++ m2) hp (pos_lt_of_betweenCommands (by simp [hp]) hs)
  refine ⟨t, hrun, hbytes, hpos, hphase.trans hp, hstr, hunsup, hproto, hillegal, ?_, ?_⟩
  · rw [hlog, ← hlen, List.drop_left]
  · rw [hlog, ← hlen, List.take_left]
    exact hall

/-! ### Squeezing -/

/-- The byte SQUEEZE number `j` since `s` returns. -/
def squeezedByte (P : Permute) (s : State) (j : Nat) : Byte :=
  byteAt (permutedTimes P ((s.pos.toNat + j) / s.rateBytes.toNat) s.S) ((s.pos.toNat + j) % s.rateBytes.toNat)

/-- The state `t` after `n` SQUEEZE commands from `s`. -/
structure Squeezed (P : Permute) (s : State) (n : Nat) (t : State) : Prop where
  progress : Progress s t n
  bytes : t.S = permutedTimes P ((s.pos.toNat + n) / s.rateBytes.toNat) s.S
  output : lastBytes n t = (List.range n).map (squeezedByte P s)

theorem Squeezed.refl (P : Permute) {s : State} (h : s.pos.toNat < s.rateBytes.toNat) : Squeezed P s 0 s where
  progress := .refl h
  bytes := by rw [Nat.add_zero, Nat.div_eq_of_lt h, permutedTimes]
  output := rfl

/-- One SQUEEZE more. -/
theorem Squeezed.squeeze {P : Permute} {s t : State} {n : Nat} (h : Squeezed P s n t) (hp : s.phase ≠ .idle) :
    Squeezed P s (n + 1)
      (respond .ok (outputWord (byteAt t.S t.posOffset)) (advancePos P (beginCommand t))) := by
  have hprogress := h.progress.beginCommand
  have hbyte : byteAt t.S t.posOffset = squeezedByte P s n := by
    rw [squeezedByte, ← h.bytes, ← h.progress.pos, State.posOffset]
  refine ⟨hprogress.respond_advancePos P _ hp, ?_, ?_⟩
  · rw [← Nat.add_assoc, respond_S]
    obtain ⟨hwithin, ht⟩ | ⟨hlast, ht⟩ := hprogress.advancePos_cases P hp
    · rw [ht, setPos_S, beginCommand_S, h.bytes, (succ_div_mod_within hwithin).1]
    · rw [ht, setPos_S, permute_S, setPos_S, beginCommand_S, h.bytes, (succ_div_mod_last hlast).1, permutedTimes]
  · have hlog : (respond .ok (outputWord (byteAt t.S t.posOffset)) (advancePos P (beginCommand t))).rspLog =
        [⟨.ok, outputWord (byteAt t.S t.posOffset), (advancePos P (beginCommand t)).perms⟩] ++ t.rspLog := by
      rw [respond_rspLog, advancePos_rspLog, beginCommand_rspLog, List.singleton_append]
    rw [lastBytes_add n hlog List.length_singleton, h.output, List.range_succ, List.map_append, hbyte]
    simp [lastBytes]

/-- SQUEEZE_N answers from every SQUEEZING state between commands. -/
theorem exists_squeezed (P : Permute) (n : Nat) {s : State} (hp : s.phase = .squeezing)
    (hlt : s.pos.toNat < s.rateBytes.toNat) :
    ∃ t, runCommands P (squeezeN n) s = .next t ∧ Squeezed P s n t := by
  have hactive : s.phase ≠ .idle := by simp [hp]
  induction n with
  | zero => exact ⟨s, rfl, .refl P hlt⟩
  | succ n ih =>
    obtain ⟨t, hrun, h⟩ := ih
    have heffect := Effect.squeeze (P := P) (h.progress.phase.trans hp) (h.progress.pos_lt hactive)
    refine ⟨_, ?_, h.squeeze hactive⟩
    rw [squeezeN_add, runCommands_append_eq_next]
    exact ⟨t, hrun, runCommands_cons_eq_next.mpr ⟨_, heffect, rfl⟩⟩

/-- Settles O46. -/
theorem squeezeRunPositionAndPermutations : Obligations.SqueezeRunPositionAndPermutations := by
  intro P n s hp hs
  obtain ⟨t, hrun, h⟩ := exists_squeezed P n hp (pos_lt_of_betweenCommands (by simp [hp]) hs)
  exact ⟨t, hrun, h.progress.phase.trans hp, h.progress.str, h.progress.pos, h.progress.permCount⟩

/-! ### A message up to the end of FINALIZE -/

theorem getD_padMask (rate p a : Nat) :
    (padMask rate p).getD a 0#8 =
      if a < rate then (if a = p then 0x1F#8 else 0#8) ^^^ (if a = rate - 1 then 0x80#8 else 0#8) else 0#8 := by
  unfold padMask
  by_cases h : a < rate <;> simp [List.getD, h]

/-- The pad of FINALIZE is one mask over the block (42_finalize.md R141, R142). -/
theorem paddedBytes_eq_xorBlock {s : State} (h : s.pos.toNat < s.rateBytes.toNat) :
    paddedBytes s = xorBlock s.S (padMask s.rateBytes.toNat s.pos.toNat) := by
  refine bytes_ext fun a ha => ?_
  rw [byteAt_paddedBytes h, byteAt_xorBlock _ _ ha, getD_padMask, BitVec.xor_assoc]
  by_cases hin : a < s.rateBytes.toNat
  · rw [if_pos hin]
  · rw [if_neg hin, if_neg (by omega), if_neg (by omega), BitVec.xor_zero]

/-- RATE_BYTES of the session INIT creates for a value of STR (00_scope.md R6). -/
def sessionRate (b : BitVec 1) : Nat := rateBits (strengthOf b) / 8

theorem rateBytes_toNat_eq_sessionRate {s : State} (hp : s.phase ≠ .idle) : s.rateBytes.toNat = sessionRate s.str :=
  rateBytes_toNat_eq_rateBits hp

/-- The state `t` after a message and FINALIZE, from a fresh session `s`. -/
structure Finalized (P : Permute) (m : List Byte) (s t : State) : Prop where
  phase : t.phase = .squeezing
  str : t.str = s.str
  pos : t.pos = 0#8
  sticky : SameSticky s t
  bytes : t.S = finalizedState P (sessionRate s.str) m
  permCount : t.permCount = s.permCount + m.length / sessionRate s.str + 1

theorem Finalized.rateBytes {P : Permute} {m : List Byte} {s t : State} (h : Finalized P m s t) :
    t.rateBytes.toNat = sessionRate s.str := by
  rw [rateBytes_toNat_eq_sessionRate (by simp [h.phase]), h.str]

/-- FINALIZE after the whole message, from a fresh session. -/
theorem Absorbed.finalize {P : Permute} {m : List Byte} {s t : State} (h : Absorbed P s m t)
    (hp : s.phase ≠ .idle) (hzero : s.pos.toNat = 0) (hS : s.S = zeroBytes) :
    Finalized P m s (respond .ok 0#32 (enterSqueezing (permute P (setBytes (paddedBytes t) (beginCommand t))))) := by
  have hrate : s.rateBytes.toNat = sessionRate s.str := rateBytes_toNat_eq_sessionRate hp
  obtain ⟨-, hstr, ⟨hunsup, hproto, hillegal⟩, hpos, hcount⟩ := h.progress
  have hbytes := h.bytes
  rw [hrate, hzero, Nat.zero_add] at hpos hcount hbytes
  refine ⟨rfl, hstr, rfl, ⟨hunsup, hproto, hillegal⟩, ?_, congrArg (· + 1) hcount⟩
  rw [respond_S, enterSqueezing_S, permute_S, setBytes_S, paddedBytes_eq_xorBlock (h.progress.pos_lt hp),
    h.progress.rateBytes, hrate, hpos, hbytes, hS, finalizedState]

/-- INIT, the bytes of a message and FINALIZE answer from every state. -/
theorem exists_finalized (P : Permute) {n : BitVec 16} {b : BitVec 1} (hn : strengthBit n = some b) (m : List Byte)
    (s : State) :
    ∃ t, runCommands P (.init n :: absorbBytes m ++ [.finalize]) s = .next t ∧
      Finalized P m (respond .ok 0#32 (newSession b (beginCommand s))) t := by
  have hactive : (respond .ok 0#32 (newSession b (beginCommand s))).phase ≠ .idle := nofun
  obtain ⟨u, hrun, h⟩ := exists_absorbed P m (s := respond .ok 0#32 (newSession b (beginCommand s))) rfl
    (rateBytes_toNat_pos hactive)
  have heffect := Effect.finalize (P := P) (h.progress.phase.trans rfl) (h.progress.pos_lt hactive)
  refine ⟨_, ?_, h.finalize hactive rfl rfl⟩
  rw [List.cons_append, runCommands_cons_eq_next]
  exact ⟨_, .init hn, runCommands_append_eq_next.mpr ⟨u, hrun, runCommands_cons_eq_next.mpr ⟨_, heffect, rfl⟩⟩⟩

/-- Settles O47. -/
theorem finalizedMessageCostsOneMorePermutation : Obligations.FinalizedMessageCostsOneMorePermutation := by
  intro P i m s hi
  obtain rfl | rfl := hi
  · obtain ⟨t, hrun, h⟩ := exists_finalized P (n := 128#16) (b := 0#1) rfl m s
    refine ⟨t, hrun, h.phase, h.pos, rateBytes_of_str_zero (by simp [h.phase]) h.str, ?_⟩
    rw [h.rateBytes, h.permCount]
    rfl
  · obtain ⟨t, hrun, h⟩ := exists_finalized P (n := 256#16) (b := 1#1) rfl m s
    refine ⟨t, hrun, h.phase, h.pos, rateBytes_of_str_one (by simp [h.phase]) h.str, ?_⟩
    rw [h.rateBytes, h.permCount]
    rfl

/-! ### COMPUTE -/

/-- The commands of COMPUTE answer from every state, with the bytes of the sponge function. -/
theorem exists_computed (P : Permute) {n : BitVec 16} {b : BitVec 1} (hn : strengthBit n = some b) (m : List Byte)
    (k : Nat) (s : State) :
    ∃ t, runCommands P (.init n :: computeRest m k) s = .next t ∧ t.phase = .squeezing ∧ noSticky t ∧
      lastBytes k t = shake P (strengthOf b) m k ∧
      t.permCount = s.permCount + m.length / sessionRate b + 1 + k / sessionRate b := by
  obtain ⟨u, hu, hfinal⟩ := exists_finalized P hn m s
  have hactive : u.phase ≠ .idle := by simp [hfinal.phase]
  have hzero : u.pos.toNat = 0 := by rw [hfinal.pos]; rfl
  obtain ⟨t, ht, h⟩ := exists_squeezed P k hfinal.phase (by rw [hzero]; exact rateBytes_toNat_pos hactive)
  obtain ⟨hunsup, hproto, hillegal⟩ := hfinal.sticky
  refine ⟨t, ?_, h.progress.phase.trans hfinal.phase, ⟨h.progress.sticky.unsup.trans hunsup,
    h.progress.sticky.proto.trans hproto, h.progress.sticky.illegal.trans hillegal⟩, ?_, ?_⟩
  · have hlist : Instr.init n :: computeRest m k = (.init n :: absorbBytes m ++ [.finalize]) ++ squeezeN k := by
      simp [computeRest]
    rw [hlist, runCommands_append_eq_next]
    exact ⟨u, hu, ht⟩
  · rw [h.output, shake]
    refine List.map_congr_left fun j _ => ?_
    rw [squeezedByte, shakeByte, hzero, Nat.zero_add, hfinal.rateBytes, hfinal.bytes]
    rfl
  · rw [h.progress.permCount, hfinal.permCount, hzero, Nat.zero_add, hfinal.rateBytes]
    rfl

/-- A strength INIT accepts has a value of STR. -/
theorem exists_strengthBit {strength : Nat} (h : strength = 128 ∨ strength = 256) :
    ∃ b, strengthBit (BitVec.ofNat 16 strength) = some b ∧ strengthOf b = strength := by
  obtain rfl | rfl := h
  · exact ⟨0#1, rfl, rfl⟩
  · exact ⟨1#1, rfl, rfl⟩

section Compute
variable {P : Permute} {strength : Int} {m : List Byte} {n : Nat} {s u : State}

/-- COMPUTE whose INIT is accepted reports OK with the bytes of the rest. -/
theorem compute_of_ok {t : State} (hlo : -32768 ≤ strength) (hhi : strength ≤ 65535)
    (hu : Effect P s (some (.init (BitVec.ofInt 16 strength))) u) (hok : u.rspStatus = .ok)
    (hrun : runCommands P (computeRest m n) u = .next t) :
    compute P strength m n s = .next (⟨.ok, lastBytes n t⟩, t) := by
  rw [compute, if_neg (by omega), execWith_eq_next.mpr hu]
  simp only [if_pos hok, hrun]

/-- COMPUTE whose INIT is rejected stops and reports its status. -/
theorem compute_of_rejected (hlo : -32768 ≤ strength) (hhi : strength ≤ 65535)
    (hu : Effect P s (some (.init (BitVec.ofInt 16 strength))) u) (hne : u.rspStatus ≠ .ok) :
    compute P strength m n s = .next (⟨u.rspStatus, []⟩, u) := by
  rw [compute, if_neg (by omega), execWith_eq_next.mpr hu]
  simp only [if_neg hne]

end Compute

theorem Effect.rspStatus_of_strengthBit {P : Permute} {s t : State} {n : BitVec 16} {b : BitVec 1}
    (h : Effect P s (some (.init n)) t) (hn : strengthBit n = some b) : t.rspStatus = .ok := by
  cases h with
  | init => rfl
  | initRejected hnone => cases hn.symm.trans hnone

/-- Settles O39: the INIT is accepted, and the rest returns the bytes of `shake`. -/
theorem computeReturnsTheSpongeFunction : Obligations.ComputeReturnsTheSpongeFunction := by
  intro P strength m n s hstrength
  obtain ⟨b, hb, hof⟩ := exists_strengthBit hstrength
  rw [← BitVec.ofInt_natCast] at hb
  obtain ⟨t, ht, hphase, ⟨hunsup, hproto, hillegal⟩, hout, -⟩ := exists_computed P hb m n s
  obtain ⟨u, hu, hrun⟩ := runCommands_cons_eq_next.mp ht
  refine ⟨t, ?_, hphase, hunsup, hproto, hillegal⟩
  rw [compute_of_ok (by omega) (by omega) hu (hu.rspStatus_of_strengthBit hb) hrun, hout, hof]

/-- Settles O40: a strength out of range is refused by the host, any other by INIT. -/
theorem computeStopsAtAnUnsupportedStrength : Obligations.ComputeStopsAtAnUnsupportedStrength := by
  intro P strength m n s h128 h256
  by_cases hout : strength < -32768 ∨ 65535 < strength
  · exact ⟨s, if_pos hout, rfl⟩
  · have hlo : -32768 ≤ strength := by omega
    have hhi : strength ≤ 65535 := by omega
    have hnone : strengthBit (BitVec.ofInt 16 strength) = none :=
      strengthBit_eq_none_iff.mpr ⟨mt (ofInt_strength_eq_iff hlo hhi _ (by decide)).mp h128,
        mt (ofInt_strength_eq_iff hlo hhi _ (by decide)).mp h256⟩
    exact ⟨_, compute_of_rejected hlo hhi (.initRejected hnone) (by simp), by simp [State.session]⟩

/-! ### Several blocks -/

/-- What `stepInstance` makes of the block it steps (`stepInstance_of_getElem?`): one that stops stays as it is. -/
def instanceStep (s : State) : State :=
  match step s with
  | .next t => t
  | _ => s

theorem stepInstance_of_getElem? {k : Nat} {ys : List State} {s : State} (h : ys[k]? = some s) :
    stepInstance k ys = ys.set k (instanceStep s) := by
  obtain ⟨hlt, rfl⟩ := List.getElem?_eq_some_iff.mp h
  simp only [stepInstance, h, instanceStep]
  cases step ys[k] <;> simp

theorem stepInstance_of_none {k : Nat} {ys : List State} (h : ys[k]? = none) : stepInstance k ys = ys := by
  simp only [stepInstance, h]

theorem getElem?_stepInstance_self (k : Nat) (ys : List State) :
    (stepInstance k ys)[k]? = ys[k]?.map instanceStep := by
  cases h : ys[k]? with
  | none => rw [stepInstance_of_none h, h, Option.map_none]
  | some s =>
    obtain ⟨hlt, -⟩ := List.getElem?_eq_some_iff.mp h
    rw [stepInstance_of_getElem? h, List.getElem?_set_self hlt, Option.map_some]

theorem getElem?_stepInstance_ne {j k : Nat} (hne : k ≠ j) (ys : List State) :
    (stepInstance k ys)[j]? = ys[j]? := by
  cases h : ys[k]? with
  | none => rw [stepInstance_of_none h]
  | some s => rw [stepInstance_of_getElem? h, List.getElem?_set_ne hne]

/-- A block takes its own steps, whatever steps of others come in between (60_exceptions.md R213). -/
theorem getElem?_runInstances (ks : List Nat) (k : Nat) (ys : List State) :
    (runInstances ks ys)[k]? = ys[k]?.map instanceStep^[ks.count k] := by
  induction ks generalizing ys with
  | nil => simp [runInstances]
  | cons i ks ih =>
    rw [runInstances, ih]
    by_cases h : i = k
    · subst h
      rw [getElem?_stepInstance_self, List.count_cons_self, Function.iterate_succ, Option.map_map]
    · rw [getElem?_stepInstance_ne h, List.count_cons_of_ne h]

theorem iterate_instanceStep {n : Nat} {s t : State} (h : runSteps n s = .next t) : instanceStep^[n] s = t := by
  induction n generalizing s with
  | zero => cases h; rfl
  | succ n ih =>
    obtain ⟨u, hu, hrun⟩ := andThen_eq_next.mp h
    have hstep : instanceStep s = u := by rw [instanceStep, hu]
    rw [Function.iterate_succ_apply, hstep, ih hrun]

/-- A run of words leaves a ready block ready, and the host's list alone. -/
theorem runWords_keeps_ports {P : Permute} {ws : List Word} {s t : State} (h : runWords P ws s = .next t)
    (hs : s.stage = .ready) : t.stage = .ready ∧ t.cmdIn = s.cmdIn := by
  induction ws generalizing s with
  | nil => cases h; exact ⟨hs, rfl⟩
  | cons w ws ih =>
    obtain ⟨u, hu, hrun⟩ := runWords_cons_eq_next.mp h
    rw [← hu.ports_unchanged.2.1]
    exact ih hrun hu.recorded.2

theorem stepInstance_comm {i j : Nat} (h : i ≠ j) (ys : List State) :
    stepInstance i (stepInstance j ys) = stepInstance j (stepInstance i ys) := by
  refine List.ext_getElem? fun a => ?_
  by_cases hi : i = a
  · subst hi
    rw [getElem?_stepInstance_self, getElem?_stepInstance_ne h.symm, getElem?_stepInstance_ne h.symm,
      getElem?_stepInstance_self]
  · by_cases hj : j = a
    · subst hj
      rw [getElem?_stepInstance_ne hi, getElem?_stepInstance_self, getElem?_stepInstance_self,
        getElem?_stepInstance_ne hi]
    · rw [getElem?_stepInstance_ne hi, getElem?_stepInstance_ne hj, getElem?_stepInstance_ne hj,
        getElem?_stepInstance_ne hi]

/-- Settles O57: the steps that the order gives block `k` run the words of COMPUTE. -/
theorem instancesShareNothing : Obligations.InstancesShareNothing := by
  refine ⟨fun k strength m n ks ys s rest hstrength hk hs hcmd hcount => ?_,
    fun i j ys hij => ⟨getElem?_stepInstance_ne hij ys, stepInstance_comm hij ys⟩⟩
  obtain ⟨b, hb, hof⟩ := exists_strengthBit hstrength
  obtain ⟨t, ht, hphase, ⟨hunsup, hproto, hillegal⟩, hout, hperms⟩ :=
    exists_computed Config.permute hb m n { s with cmdIn := rest }
  rw [sessionRate, hof] at hperms
  rw [← runWords_map_encode] at ht
  obtain ⟨hready, hrest⟩ := runWords_keeps_ports ht hs
  have hsteps := iterate_instanceStep ((runSteps_of_presented hs hcmd).trans ht)
  refine ⟨t, ?_, hrest, hready, hphase, by rw [hout, hof], hperms, hunsup, hproto, hillegal⟩
  rw [getElem?_runInstances, hk, hcount, Option.map_some, hsteps]

end Sys2Proof.Machine
end
